-- ==== Sys2Proof/Word.lean ====
section
/-! DEFINITION. Words, bytes and register numbers (00_scope.md R10, R12, R15). -/

namespace Sys2Proof

/-- A 32-bit word, unsigned by default; `+`, `-`, `*` on it are modulo 2^32 (R10, R15). -/
abbrev Word := BitVec 32

/-- One byte of memory (R100). -/
abbrev Byte := BitVec 8

/-- A 5-bit register number, x0 .. x31 (R12). -/
abbrev Reg := BitVec 5

end Sys2Proof
end

