-- ==== Sys2Proof/Config.lean ====
section
/-! DEFINITION. The launch parameters of one instance of the core (00_scope.md R11; 92_eei_decisions.md). -/

namespace Sys2Proof

/-- `POLICY`: which line of a full set is evicted (48_cache_engine.md R480). -/
inductive Policy where
  | lru  -- recency
  | lfu  -- frequency
  deriving DecidableEq, Repr

/-- `DIV_CORNER`: what a divide by zero or the signed overflow does (47_muldiv.md R449). -/
inductive DivCorner where
  | fault
  | riscv
  deriving DecidableEq, Repr

/-- The parameters of 00_scope.md R11 that stay fixed for the life of an instance. `RESET_PC`, `INIT_REGS`
and `INIT_MEM` are arguments of the launch alone (70_reset_and_hazards.md R700). -/
structure Config where
  /-- `S_BITS`: number of set-index bits of the cache. -/
  sBits : Nat
  /-- `B_BITS`: number of block-offset bits. -/
  bBits : Nat
  /-- `WAYS`: lines per set. -/
  ways : Nat
  /-- `POLICY`. -/
  policy : Policy
  /-- `CACHE_NAME`: no rule reads it (U16). -/
  cacheName : String
  /-- `MEM_SIZE`: bytes of memory, at addresses `0 .. MEM_SIZE-1` (R100). -/
  memSize : Nat
  /-- `EXIT_ARG_REG`: the register the exit check reads (46_system.md R421). -/
  exitArgReg : Reg
  /-- `EXIT_CODE`: the value that ends the run (R421). -/
  exitCode : Word
  /-- `RF_WB_BEFORE_DECODE`: decode sees the register write of the same cycle (40_pipeline_engine.md R204). -/
  rfWbBeforeDecode : Bool
  /-- `STORE_BEFORE_FETCH`: fetch sees the store of the same cycle (R204). -/
  storeBeforeFetch : Bool
  /-- `MEM_PROBE`: loads and stores probe the cache (R222). -/
  memProbe : Bool
  /-- `M_EXT`: the multiply and divide rows decode (R440). -/
  mExt : Bool
  /-- `DIV_CORNER` (R449). -/
  divCorner : DivCorner
  deriving DecidableEq, Repr

/-- The ranges of R11 and R471; an instance is created only inside them (70_reset_and_hazards.md R700). -/
def Config.valid (c : Config) : Bool :=
  decide (1 ≤ c.ways) && decide (c.sBits + c.bBits ≤ 32) &&
  decide (4 ≤ c.memSize) && decide (c.memSize ≤ 2 ^ 32) && decide (c.exitArgReg ≠ 0#5)

/-- DESIGN CHOICE (log 2): the configuration `State.reset` takes, the table of 95_test_vectors.md part 0,
whose last seven entries are the defaults of R11. -/
def Config.default : Config where
  sBits := 2
  bBits := 4
  ways := 2
  policy := .lru
  cacheName := ""
  memSize := 0x200
  exitArgReg := 10#5
  exitCode := 10#32
  rfWbBeforeDecode := true
  storeBeforeFetch := false
  memProbe := true
  mExt := false
  divCorner := .fault

end Sys2Proof
end

