-- ==== Sys2Proof/Syntax.lean ====
section
/-! DEFINITION. The instructions: one constructor of `Instr` for each row of spec/opcode_table.json
(30_encoding.md R150), its operands in the field widths of R142. -/

namespace Sys2Proof

/-- The spec's format tags (30_encoding.md R141). -/
inductive Format where
  | R | I | IS | L | S | B | U | J | SYS | NONE
  deriving DecidableEq, Repr

/-- The mnemonics of the opcode table: the `op` of an instruction view (10_state.md R56). -/
inductive Mnemonic where
  | add | sub | sll | slt | sltu | xor | srl | sra | or | and
  | addi | slti | sltiu | xori | ori | andi
  | slli | srli | srai
  | lui | auipc
  | lb | lh | lw | lbu | lhu
  | sb | sh | sw
  | beq | bne | blt | bge | bltu | bgeu
  | jal
  | jalr
  | ecall
  | bubble
  | mul | mulh | mulhsu | mulhu | div | divu | rem | remu
  deriving DecidableEq, Repr

/-- An instruction with its operands. -/
inductive Instr where
  -- register-register (42_alu_register.md)
  | add (rd rs1 rs2 : Reg)
  | sub (rd rs1 rs2 : Reg)
  | sll (rd rs1 rs2 : Reg)
  | slt (rd rs1 rs2 : Reg)
  | sltu (rd rs1 rs2 : Reg)
  | xor (rd rs1 rs2 : Reg)
  | srl (rd rs1 rs2 : Reg)
  | sra (rd rs1 rs2 : Reg)
  | or (rd rs1 rs2 : Reg)
  | and (rd rs1 rs2 : Reg)
  -- register-immediate (43_alu_immediate.md): a 12-bit immediate
  | addi (rd rs1 : Reg) (imm : BitVec 12)
  | slti (rd rs1 : Reg) (imm : BitVec 12)
  | sltiu (rd rs1 : Reg) (imm : BitVec 12)
  | xori (rd rs1 : Reg) (imm : BitVec 12)
  | ori (rd rs1 : Reg) (imm : BitVec 12)
  | andi (rd rs1 : Reg) (imm : BitVec 12)
  -- shift by an immediate amount (R337 to R339)
  | slli (rd rs1 : Reg) (shamt : BitVec 5)
  | srli (rd rs1 : Reg) (shamt : BitVec 5)
  | srai (rd rs1 : Reg) (shamt : BitVec 5)
  -- upper-immediate (R340, R341): bits 31..12 of the immediate
  | lui (rd : Reg) (imm20 : BitVec 20)
  | auipc (rd : Reg) (imm20 : BitVec 20)
  -- loads (44_load_store.md): `lX rd, imm(rs1)`
  | lb (rd rs1 : Reg) (imm : BitVec 12)
  | lh (rd rs1 : Reg) (imm : BitVec 12)
  | lw (rd rs1 : Reg) (imm : BitVec 12)
  | lbu (rd rs1 : Reg) (imm : BitVec 12)
  | lhu (rd rs1 : Reg) (imm : BitVec 12)
  -- stores: `sX rs2, imm(rs1)`
  | sb (rs1 rs2 : Reg) (imm : BitVec 12)
  | sh (rs1 rs2 : Reg) (imm : BitVec 12)
  | sw (rs1 rs2 : Reg) (imm : BitVec 12)
  -- branches (45_control_transfer.md): a byte offset from the branch's own address, even when well-formed
  | beq (rs1 rs2 : Reg) (off : BitVec 13)
  | bne (rs1 rs2 : Reg) (off : BitVec 13)
  | blt (rs1 rs2 : Reg) (off : BitVec 13)
  | bge (rs1 rs2 : Reg) (off : BitVec 13)
  | bltu (rs1 rs2 : Reg) (off : BitVec 13)
  | bgeu (rs1 rs2 : Reg) (off : BitVec 13)
  -- jump and link: a byte offset, even when well-formed
  | jal (rd : Reg) (off : BitVec 21)
  -- indirect jump: `jalr rd, imm(rs1)`
  | jalr (rd rs1 : Reg) (imm : BitVec 12)
  -- system call (46_system.md R420)
  | ecall
  -- the all-zero word (R425)
  | bubble
  -- multiply and divide, present with M_EXT only (47_muldiv.md)
  | mul (rd rs1 rs2 : Reg)
  | mulh (rd rs1 rs2 : Reg)
  | mulhsu (rd rs1 rs2 : Reg)
  | mulhu (rd rs1 rs2 : Reg)
  | div (rd rs1 rs2 : Reg)
  | divu (rd rs1 rs2 : Reg)
  | rem (rd rs1 rs2 : Reg)
  | remu (rd rs1 rs2 : Reg)
  deriving DecidableEq, Repr

/-- The row of the opcode table an instruction belongs to. -/
def Instr.mnemonic : Instr → Mnemonic
  | .add _ _ _ => .add
  | .sub _ _ _ => .sub
  | .sll _ _ _ => .sll
  | .slt _ _ _ => .slt
  | .sltu _ _ _ => .sltu
  | .xor _ _ _ => .xor
  | .srl _ _ _ => .srl
  | .sra _ _ _ => .sra
  | .or _ _ _ => .or
  | .and _ _ _ => .and
  | .addi _ _ _ => .addi
  | .slti _ _ _ => .slti
  | .sltiu _ _ _ => .sltiu
  | .xori _ _ _ => .xori
  | .ori _ _ _ => .ori
  | .andi _ _ _ => .andi
  | .slli _ _ _ => .slli
  | .srli _ _ _ => .srli
  | .srai _ _ _ => .srai
  | .lui _ _ => .lui
  | .auipc _ _ => .auipc
  | .lb _ _ _ => .lb
  | .lh _ _ _ => .lh
  | .lw _ _ _ => .lw
  | .lbu _ _ _ => .lbu
  | .lhu _ _ _ => .lhu
  | .sb _ _ _ => .sb
  | .sh _ _ _ => .sh
  | .sw _ _ _ => .sw
  | .beq _ _ _ => .beq
  | .bne _ _ _ => .bne
  | .blt _ _ _ => .blt
  | .bge _ _ _ => .bge
  | .bltu _ _ _ => .bltu
  | .bgeu _ _ _ => .bgeu
  | .jal _ _ => .jal
  | .jalr _ _ _ => .jalr
  | .ecall => .ecall
  | .bubble => .bubble
  | .mul _ _ _ => .mul
  | .mulh _ _ _ => .mulh
  | .mulhsu _ _ _ => .mulhsu
  | .mulhu _ _ _ => .mulhu
  | .div _ _ _ => .div
  | .divu _ _ _ => .divu
  | .rem _ _ _ => .rem
  | .remu _ _ _ => .remu

/-- The format of each row (R150). -/
def Mnemonic.fmt : Mnemonic → Format
  | .add | .sub | .sll | .slt | .sltu | .xor | .srl | .sra | .or | .and => .R
  | .addi | .slti | .sltiu | .xori | .ori | .andi => .I
  | .slli | .srli | .srai => .IS
  | .lui | .auipc => .U
  | .lb | .lh | .lw | .lbu | .lhu => .L
  | .sb | .sh | .sw => .S
  | .beq | .bne | .blt | .bge | .bltu | .bgeu => .B
  | .jal => .J
  | .jalr => .I
  | .ecall => .SYS
  | .bubble => .NONE
  | .mul | .mulh | .mulhsu | .mulhu | .div | .divu | .rem | .remu => .R

/-- The rows that are present with `M_EXT = true` only (R150, R440). -/
def Mnemonic.isM : Mnemonic → Bool
  | .add | .sub | .sll | .slt | .sltu | .xor | .srl | .sra | .or | .and => false
  | .addi | .slti | .sltiu | .xori | .ori | .andi => false
  | .slli | .srli | .srai => false
  | .lui | .auipc => false
  | .lb | .lh | .lw | .lbu | .lhu => false
  | .sb | .sh | .sw => false
  | .beq | .bne | .blt | .bge | .bltu | .bgeu => false
  | .jal => false
  | .jalr => false
  | .ecall => false
  | .bubble => false
  | .mul | .mulh | .mulhsu | .mulhu | .div | .divu | .rem | .remu => true

/-- Every row of the opcode table, in its order. -/
def Mnemonic.all : List Mnemonic :=
  [.add, .sub, .sll, .slt, .sltu, .xor, .srl, .sra, .or, .and,
   .addi, .slti, .sltiu, .xori, .ori, .andi,
   .slli, .srli, .srai,
   .lui, .auipc,
   .lb, .lh, .lw, .lbu, .lhu,
   .sb, .sh, .sw,
   .beq, .bne, .blt, .bge, .bltu, .bgeu,
   .jal,
   .jalr,
   .ecall,
   .bubble,
   .mul, .mulh, .mulhsu, .mulhu, .div, .divu, .rem, .remu]

end Sys2Proof
end

