-- ==== Sys2Proof/WellFormed.lean ====
section
/-! DEFINITION. Which instruction terms stand for a word of the machine. Register numbers, shift amounts and
12-bit and 20-bit immediates are in range by their types; what is left to check is below. -/

namespace Sys2Proof

/-- Branch and jump offsets are even: bit 0 has no place in the word (30_encoding.md R142, R170).
DESIGN CHOICE: a term with an odd offset is no instruction (log 13). -/
def Instr.offsetEven : Instr → Bool
  | .beq _ _ off | .bne _ _ off | .blt _ _ off | .bge _ _ off | .bltu _ _ off | .bgeu _ _ off => !off.getLsbD 0
  | .jal _ off => !off.getLsbD 0
  | _ => true

/-- The multiply and divide rows are in the instruction set only when `M_EXT` is true (R150, R440). -/
def Instr.admitted (mExt : Bool) (i : Instr) : Bool := !i.mnemonic.isM || mExt

/-- An instruction of the machine whose parameter `M_EXT` is `mExt`. -/
def Instr.wellFormed (mExt : Bool) (i : Instr) : Bool := i.offsetEven && i.admitted mExt

end Sys2Proof
end

