-- ==== Sys2Proof/Decode.lean ====
section
/-! DEFINITION. Instruction words: the field positions and immediates of 30_encoding.md, the decoder (R151), the
encoder written from the same tables, and the instruction view the pipeline carries (10_state.md R56). -/

namespace Sys2Proof

/-! ## Fields (R142) -/

/-- The field positions of R142, the same for every format. -/
def fieldOpcode (w : Word) : BitVec 7 := w.extractLsb' 0 7
def fieldRd (w : Word) : Reg := w.extractLsb' 7 5
def fieldFunct3 (w : Word) : BitVec 3 := w.extractLsb' 12 3
def fieldRs1 (w : Word) : Reg := w.extractLsb' 15 5
def fieldRs2 (w : Word) : Reg := w.extractLsb' 20 5
def fieldFunct7 (w : Word) : BitVec 7 := w.extractLsb' 25 7

/-- The immediate bits of formats I and L. -/
def fieldImmI (w : Word) : BitVec 12 := w.extractLsb' 20 12

/-- The immediate bits of format S. -/
def fieldImmS (w : Word) : BitVec 12 := w.extractLsb' 25 7 ++ w.extractLsb' 7 5

/-- The offset bits of format B, bit 0 being 0. -/
def fieldImmB (w : Word) : BitVec 13 :=
  w.extractLsb' 31 1 ++ w.extractLsb' 7 1 ++ w.extractLsb' 25 6 ++ w.extractLsb' 8 4 ++ 0#1

/-- The upper 20 bits of format U. -/
def fieldImmU (w : Word) : BitVec 20 := w.extractLsb' 12 20

/-- The offset bits of format J, bit 0 being 0. -/
def fieldImmJ (w : Word) : BitVec 21 :=
  w.extractLsb' 31 1 ++ w.extractLsb' 12 8 ++ w.extractLsb' 20 1 ++ w.extractLsb' 21 10 ++ 0#1

/-- `Imm(fmt, w)` (R170): every immediate is sign-extended but the shift amount of format IS. -/
def immOf (f : Format) (w : Word) : Word :=
  match f with
  | .I | .L => (fieldImmI w).signExtend 32
  | .IS => (fieldRs2 w).zeroExtend 32
  | .S => (fieldImmS w).signExtend 32
  | .B => (fieldImmB w).signExtend 32
  | .U => fieldImmU w ++ 0#12
  | .J => (fieldImmJ w).signExtend 32
  | .R | .SYS | .NONE => 0#32

/-! ## The decoder (R143, R150, R151, R160) -/

/-- Why a word is no instruction. The machine reports all of them as `Fatal(DECODE)` (60_exceptions.md R602). -/
inductive DecodeError where
  /-- Fewer bytes than one word. -/
  | truncated
  /-- The opcode field is none of R143. -/
  | unrecognizedOpcode
  /-- The opcode is one of R143 and the function-code fields select no row. -/
  | malformedFunct
  /-- A multiply or divide row, and `M_EXT` is false. -/
  | absentExtension
  deriving DecidableEq, Repr

/-- Opcode OP: funct7 and funct3 select the row (R150). -/
def decodeOp (mExt : Bool) (f7 : BitVec 7) (f3 : BitVec 3) (rd rs1 rs2 : Reg) : Except DecodeError Instr :=
  if f7 = 0x00#7 then
    match f3 with
    | 0#3 => .ok (.add rd rs1 rs2)
    | 1#3 => .ok (.sll rd rs1 rs2)
    | 2#3 => .ok (.slt rd rs1 rs2)
    | 3#3 => .ok (.sltu rd rs1 rs2)
    | 4#3 => .ok (.xor rd rs1 rs2)
    | 5#3 => .ok (.srl rd rs1 rs2)
    | 6#3 => .ok (.or rd rs1 rs2)
    | 7#3 => .ok (.and rd rs1 rs2)
    | _ => .error .malformedFunct
  else if f7 = 0x20#7 then
    match f3 with
    | 0#3 => .ok (.sub rd rs1 rs2)
    | 5#3 => .ok (.sra rd rs1 rs2)
    | _ => .error .malformedFunct
  else if f7 = 0x01#7 then
    if mExt then
      match f3 with
      | 0#3 => .ok (.mul rd rs1 rs2)
      | 1#3 => .ok (.mulh rd rs1 rs2)
      | 2#3 => .ok (.mulhsu rd rs1 rs2)
      | 3#3 => .ok (.mulhu rd rs1 rs2)
      | 4#3 => .ok (.div rd rs1 rs2)
      | 5#3 => .ok (.divu rd rs1 rs2)
      | 6#3 => .ok (.rem rd rs1 rs2)
      | 7#3 => .ok (.remu rd rs1 rs2)
      | _ => .error .malformedFunct
    else .error .absentExtension
  else .error .malformedFunct

/-- Opcode OP-IMM: funct3, and for the shifts funct7, select the row (R150; 90_conflicts.md C11). -/
def decodeOpImm (f7 : BitVec 7) (f3 : BitVec 3) (rd rs1 : Reg) (shamt : BitVec 5) (imm : BitVec 12) :
    Except DecodeError Instr :=
  match f3 with
  | 0#3 => .ok (.addi rd rs1 imm)
  | 1#3 => if f7 = 0x00#7 then .ok (.slli rd rs1 shamt) else .error .malformedFunct
  | 2#3 => .ok (.slti rd rs1 imm)
  | 3#3 => .ok (.sltiu rd rs1 imm)
  | 4#3 => .ok (.xori rd rs1 imm)
  | 5#3 =>
    if f7 = 0x00#7 then .ok (.srli rd rs1 shamt)
    else if f7 = 0x20#7 then .ok (.srai rd rs1 shamt)
    else .error .malformedFunct
  | 6#3 => .ok (.ori rd rs1 imm)
  | 7#3 => .ok (.andi rd rs1 imm)
  | _ => .error .malformedFunct

/-- Opcode LOAD. -/
def decodeLoad (f3 : BitVec 3) (rd rs1 : Reg) (imm : BitVec 12) : Except DecodeError Instr :=
  match f3 with
  | 0#3 => .ok (.lb rd rs1 imm)
  | 1#3 => .ok (.lh rd rs1 imm)
  | 2#3 => .ok (.lw rd rs1 imm)
  | 4#3 => .ok (.lbu rd rs1 imm)
  | 5#3 => .ok (.lhu rd rs1 imm)
  | _ => .error .malformedFunct

/-- Opcode STORE. -/
def decodeStore (f3 : BitVec 3) (rs1 rs2 : Reg) (imm : BitVec 12) : Except DecodeError Instr :=
  match f3 with
  | 0#3 => .ok (.sb rs1 rs2 imm)
  | 1#3 => .ok (.sh rs1 rs2 imm)
  | 2#3 => .ok (.sw rs1 rs2 imm)
  | _ => .error .malformedFunct

/-- Opcode BRANCH. -/
def decodeBranch (f3 : BitVec 3) (rs1 rs2 : Reg) (off : BitVec 13) : Except DecodeError Instr :=
  match f3 with
  | 0#3 => .ok (.beq rs1 rs2 off)
  | 1#3 => .ok (.bne rs1 rs2 off)
  | 4#3 => .ok (.blt rs1 rs2 off)
  | 5#3 => .ok (.bge rs1 rs2 off)
  | 6#3 => .ok (.bltu rs1 rs2 off)
  | 7#3 => .ok (.bgeu rs1 rs2 off)
  | _ => .error .malformedFunct

/-- `Decode(w)` (R151): the all-zero word is the bubble, an admitted row's word is its instruction, and every
other word is refused (R160), among them those that `csrr`, `fence`, `ebreak` and the floating-point pseudo-instructions
expand to (R181): the opcodes 0x0F, 0x07, 0x27, 0x43 to 0x53 have no arm, and of 0x73 only ECALL's word is one. -/
def decode (mExt : Bool) (w : Word) : Except DecodeError Instr :=
  if w = 0x00000000#32 then .ok .bubble
  else
    match fieldOpcode w with
    | 0x33#7 => decodeOp mExt (fieldFunct7 w) (fieldFunct3 w) (fieldRd w) (fieldRs1 w) (fieldRs2 w)
    | 0x13#7 => decodeOpImm (fieldFunct7 w) (fieldFunct3 w) (fieldRd w) (fieldRs1 w) (fieldRs2 w) (fieldImmI w)
    | 0x03#7 => decodeLoad (fieldFunct3 w) (fieldRd w) (fieldRs1 w) (fieldImmI w)
    | 0x23#7 => decodeStore (fieldFunct3 w) (fieldRs1 w) (fieldRs2 w) (fieldImmS w)
    | 0x63#7 => decodeBranch (fieldFunct3 w) (fieldRs1 w) (fieldRs2 w) (fieldImmB w)
    | 0x37#7 => .ok (.lui (fieldRd w) (fieldImmU w))
    | 0x17#7 => .ok (.auipc (fieldRd w) (fieldImmU w))
    | 0x6F#7 => .ok (.jal (fieldRd w) (fieldImmJ w))
    | 0x67#7 =>
      if fieldFunct3 w = 0#3 then .ok (.jalr (fieldRd w) (fieldRs1 w) (fieldImmI w)) else .error .malformedFunct
    | 0x73#7 => if w = 0x00000073#32 then .ok .ecall else .error .malformedFunct
    | _ => .error .unrecognizedOpcode

/-- The word in four bytes, lowest address first (20_memory.md R104). -/
def wordOfBytes (b0 b1 b2 b3 : Byte) : Word := b3 ++ b2 ++ b1 ++ b0

/-- One instruction from the front of a list of bytes, with the bytes after it. -/
def decodeBytes (mExt : Bool) : List Byte → Except DecodeError (Instr × List Byte)
  | b0 :: b1 :: b2 :: b3 :: rest =>
    match decode mExt (wordOfBytes b0 b1 b2 b3) with
    | .ok i => .ok (i, rest)
    | .error e => .error e
  | _ => .error .truncated

/-! ## The encoder (R142, R150) -/

/-- Format R. -/
def encodeR (f7 : BitVec 7) (f3 : BitVec 3) (op : BitVec 7) (rd rs1 rs2 : Reg) : Word :=
  f7 ++ rs2 ++ rs1 ++ f3 ++ rd ++ op

/-- Formats I and L. -/
def encodeI (f3 : BitVec 3) (op : BitVec 7) (rd rs1 : Reg) (imm : BitVec 12) : Word :=
  imm ++ rs1 ++ f3 ++ rd ++ op

/-- Format S. -/
def encodeS (f3 : BitVec 3) (op : BitVec 7) (rs1 rs2 : Reg) (imm : BitVec 12) : Word :=
  imm.extractLsb' 5 7 ++ rs2 ++ rs1 ++ f3 ++ imm.extractLsb' 0 5 ++ op

/-- Format B; bit 0 of the offset has no place in the word. -/
def encodeB (f3 : BitVec 3) (op : BitVec 7) (rs1 rs2 : Reg) (off : BitVec 13) : Word :=
  off.extractLsb' 12 1 ++ off.extractLsb' 5 6 ++ rs2 ++ rs1 ++ f3 ++ off.extractLsb' 1 4 ++ off.extractLsb' 11 1 ++ op

/-- Format U. -/
def encodeU (op : BitVec 7) (rd : Reg) (imm20 : BitVec 20) : Word := imm20 ++ rd ++ op

/-- Format J; bit 0 of the offset has no place in the word. -/
def encodeJ (op : BitVec 7) (rd : Reg) (off : BitVec 21) : Word :=
  off.extractLsb' 20 1 ++ off.extractLsb' 1 10 ++ off.extractLsb' 11 1 ++ off.extractLsb' 12 8 ++ rd ++ op

/-- The word of an instruction (R142, R150). -/
def encode : Instr → Word
  | .add rd rs1 rs2 => encodeR 0x00#7 0#3 0x33#7 rd rs1 rs2
  | .sub rd rs1 rs2 => encodeR 0x20#7 0#3 0x33#7 rd rs1 rs2
  | .sll rd rs1 rs2 => encodeR 0x00#7 1#3 0x33#7 rd rs1 rs2
  | .slt rd rs1 rs2 => encodeR 0x00#7 2#3 0x33#7 rd rs1 rs2
  | .sltu rd rs1 rs2 => encodeR 0x00#7 3#3 0x33#7 rd rs1 rs2
  | .xor rd rs1 rs2 => encodeR 0x00#7 4#3 0x33#7 rd rs1 rs2
  | .srl rd rs1 rs2 => encodeR 0x00#7 5#3 0x33#7 rd rs1 rs2
  | .sra rd rs1 rs2 => encodeR 0x20#7 5#3 0x33#7 rd rs1 rs2
  | .or rd rs1 rs2 => encodeR 0x00#7 6#3 0x33#7 rd rs1 rs2
  | .and rd rs1 rs2 => encodeR 0x00#7 7#3 0x33#7 rd rs1 rs2
  | .addi rd rs1 imm => encodeI 0#3 0x13#7 rd rs1 imm
  | .slti rd rs1 imm => encodeI 2#3 0x13#7 rd rs1 imm
  | .sltiu rd rs1 imm => encodeI 3#3 0x13#7 rd rs1 imm
  | .xori rd rs1 imm => encodeI 4#3 0x13#7 rd rs1 imm
  | .ori rd rs1 imm => encodeI 6#3 0x13#7 rd rs1 imm
  | .andi rd rs1 imm => encodeI 7#3 0x13#7 rd rs1 imm
  | .slli rd rs1 shamt => encodeR 0x00#7 1#3 0x13#7 rd rs1 shamt
  | .srli rd rs1 shamt => encodeR 0x00#7 5#3 0x13#7 rd rs1 shamt
  | .srai rd rs1 shamt => encodeR 0x20#7 5#3 0x13#7 rd rs1 shamt
  | .lui rd imm20 => encodeU 0x37#7 rd imm20
  | .auipc rd imm20 => encodeU 0x17#7 rd imm20
  | .lb rd rs1 imm => encodeI 0#3 0x03#7 rd rs1 imm
  | .lh rd rs1 imm => encodeI 1#3 0x03#7 rd rs1 imm
  | .lw rd rs1 imm => encodeI 2#3 0x03#7 rd rs1 imm
  | .lbu rd rs1 imm => encodeI 4#3 0x03#7 rd rs1 imm
  | .lhu rd rs1 imm => encodeI 5#3 0x03#7 rd rs1 imm
  | .sb rs1 rs2 imm => encodeS 0#3 0x23#7 rs1 rs2 imm
  | .sh rs1 rs2 imm => encodeS 1#3 0x23#7 rs1 rs2 imm
  | .sw rs1 rs2 imm => encodeS 2#3 0x23#7 rs1 rs2 imm
  | .beq rs1 rs2 off => encodeB 0#3 0x63#7 rs1 rs2 off
  | .bne rs1 rs2 off => encodeB 1#3 0x63#7 rs1 rs2 off
  | .blt rs1 rs2 off => encodeB 4#3 0x63#7 rs1 rs2 off
  | .bge rs1 rs2 off => encodeB 5#3 0x63#7 rs1 rs2 off
  | .bltu rs1 rs2 off => encodeB 6#3 0x63#7 rs1 rs2 off
  | .bgeu rs1 rs2 off => encodeB 7#3 0x63#7 rs1 rs2 off
  | .jal rd off => encodeJ 0x6F#7 rd off
  | .jalr rd rs1 imm => encodeI 0#3 0x67#7 rd rs1 imm
  | .ecall => 0x00000073#32
  | .bubble => 0x00000000#32
  | .mul rd rs1 rs2 => encodeR 0x01#7 0#3 0x33#7 rd rs1 rs2
  | .mulh rd rs1 rs2 => encodeR 0x01#7 1#3 0x33#7 rd rs1 rs2
  | .mulhsu rd rs1 rs2 => encodeR 0x01#7 2#3 0x33#7 rd rs1 rs2
  | .mulhu rd rs1 rs2 => encodeR 0x01#7 3#3 0x33#7 rd rs1 rs2
  | .div rd rs1 rs2 => encodeR 0x01#7 4#3 0x33#7 rd rs1 rs2
  | .divu rd rs1 rs2 => encodeR 0x01#7 5#3 0x33#7 rd rs1 rs2
  | .rem rd rs1 rs2 => encodeR 0x01#7 6#3 0x33#7 rd rs1 rs2
  | .remu rd rs1 rs2 => encodeR 0x01#7 7#3 0x33#7 rd rs1 rs2

/-! ## The opcode table (R150) -/

/-- `match` of a row of the opcode table. -/
def matchOf : Mnemonic → Word
  | .add => 0x00000033#32
  | .sub => 0x40000033#32
  | .sll => 0x00001033#32
  | .slt => 0x00002033#32
  | .sltu => 0x00003033#32
  | .xor => 0x00004033#32
  | .srl => 0x00005033#32
  | .sra => 0x40005033#32
  | .or => 0x00006033#32
  | .and => 0x00007033#32
  | .addi => 0x00000013#32
  | .slti => 0x00002013#32
  | .sltiu => 0x00003013#32
  | .xori => 0x00004013#32
  | .ori => 0x00006013#32
  | .andi => 0x00007013#32
  | .slli => 0x00001013#32
  | .srli => 0x00005013#32
  | .srai => 0x40005013#32
  | .lui => 0x00000037#32
  | .auipc => 0x00000017#32
  | .lb => 0x00000003#32
  | .lh => 0x00001003#32
  | .lw => 0x00002003#32
  | .lbu => 0x00004003#32
  | .lhu => 0x00005003#32
  | .sb => 0x00000023#32
  | .sh => 0x00001023#32
  | .sw => 0x00002023#32
  | .beq => 0x00000063#32
  | .bne => 0x00001063#32
  | .blt => 0x00004063#32
  | .bge => 0x00005063#32
  | .bltu => 0x00006063#32
  | .bgeu => 0x00007063#32
  | .jal => 0x0000006F#32
  | .jalr => 0x00000067#32
  | .ecall => 0x00000073#32
  | .bubble => 0x00000000#32
  | .mul => 0x02000033#32
  | .mulh => 0x02001033#32
  | .mulhsu => 0x02002033#32
  | .mulhu => 0x02003033#32
  | .div => 0x02004033#32
  | .divu => 0x02005033#32
  | .rem => 0x02006033#32
  | .remu => 0x02007033#32

/-- `mask` of a row of the opcode table. -/
def maskOf : Mnemonic → Word
  | .add | .sub | .sll | .slt | .sltu | .xor | .srl | .sra | .or | .and | .slli | .srli | .srai | .mul | .mulh
    | .mulhsu | .mulhu | .div | .divu | .rem | .remu => 0xFE00707F#32
  | .addi | .slti | .sltiu | .xori | .ori | .andi | .lb | .lh | .lw | .lbu | .lhu | .sb | .sh | .sw | .beq
    | .bne | .blt | .bge | .bltu | .bgeu | .jalr => 0x0000707F#32
  | .lui | .auipc | .jal => 0x0000007F#32
  | .ecall | .bubble => 0xFFFFFFFF#32

/-- `(w & mask) == match`: the word belongs to the row (R150). -/
def matchesRow (m : Mnemonic) (w : Word) : Bool := decide (w &&& maskOf m = matchOf m)

/-! ## The view the pipeline carries (10_state.md R56) -/

/-- The decoder's output: the mnemonic, the format, the raw fields of the word whatever the format, the format's
immediate and the word itself (R56). -/
structure InstructionView where
  op : Mnemonic
  fmt : Format
  rd : Reg
  rs1 : Reg
  rs2 : Reg
  funct3 : BitVec 3
  funct7 : BitVec 7
  imm : Word
  word : Word
  deriving DecidableEq, Repr

/-- The view of a word that belongs to the row `m` (R151). -/
def viewOfWord (m : Mnemonic) (w : Word) : InstructionView where
  op := m
  fmt := m.fmt
  rd := fieldRd w
  rs1 := fieldRs1 w
  rs2 := fieldRs2 w
  funct3 := fieldFunct3 w
  funct7 := fieldFunct7 w
  imm := immOf m.fmt w
  word := w

/-- The view of an instruction, by its word. -/
def viewOf (i : Instr) : InstructionView := viewOfWord i.mnemonic (encode i)

/-! ## The host's entry -/

/-- The instruction the decoder reads from the low `nbits` bits of `w`, the higher bits of the one 32-bit word being
0. The bytes are laid out lowest address first (R104) and given to the decoder. The table's rows marked M decode
here, as they do in a machine with `M_EXT` true (log 8). -/
def decodeTableWord (nbits w : Nat) : Option Instr :=
  let v : Word := BitVec.ofNat 32 (w % 2 ^ nbits)
  match decodeBytes true [v.extractLsb' 0 8, v.extractLsb' 8 8, v.extractLsb' 16 8, v.extractLsb' 24 8] with
  | .ok (i, _) => some i
  | .error _ => none

end Sys2Proof
end

