-- ==== Sys2Proof/Machine/State.lean ====
section
/-! DEFINITION. The state of one core (10_state.md), the reasons a cycle can stop (60_exceptions.md), and the state
after reset (10_state.md R70, 70_reset_and_hazards.md R700). -/

namespace Sys2Proof.Machine

/-! ## Faults and refusals -/

/-- Which access a memory fault reports (60_exceptions.md R601). -/
inductive AccessKind where
  | fetch | load | store
  deriving DecidableEq, Repr

/-- What an internal consistency error found (48_cache_engine.md R489). -/
inductive InternalError where
  /-- The cache state has no set with the probed index. -/
  | setNotFound
  /-- The probed set has no line with the chosen index. -/
  | lineNotFound
  deriving DecidableEq, Repr

/-- The fatal conditions of 60_exceptions.md R601 with their information. Each ends the run and commits nothing of
its cycle (R610), as the spec says: safe. -/
inductive Fault where
  /-- `DECODE {pc, word}`: the fetch stage, for a word outside the opcode table (R602). Safe. -/
  | decode (pc word : Word)
  /-- `BOUNDS {kind, address, width}`: the fetch or memory stage, for an access past `MEM_SIZE` (R603). Safe. -/
  | bounds (kind : AccessKind) (addr : Word) (width : Nat)
  /-- `MISALIGNED {kind, address, width}`: the fetch or memory stage (R604). Safe. -/
  | misaligned (kind : AccessKind) (addr : Word) (width : Nat)
  /-- `SYSCALL {pc, code}`: the writeback stage, for an unsupported system-call code (R605). Safe. -/
  | syscall (pc code : Word)
  /-- `INTERNAL {description}`: a probe that cannot locate its set or line; from no state the machine reaches
  (R606, R489). Safe. -/
  | internal (description : InternalError)
  /-- `ARITH {pc, a, b}`: the execute stage, for the divide corner cases (R607). Safe. -/
  | arith (pc a b : Word)
  deriving DecidableEq, Repr

/-- The numeric code of a fatal kind (R601). -/
def Fault.code : Fault → Nat
  | .decode _ _ => 1
  | .bounds _ _ _ => 2
  | .misaligned _ _ _ => 3
  | .syscall _ _ => 4
  | .internal _ => 5
  | .arith _ _ _ => 6

/-- Why a request to the machine is turned away, the state being unchanged. -/
inductive Refusal where
  /-- Raised by an arm of `exec` that has no meaning yet; no arm of this model answers it. Safe. -/
  | notModelled (mnemonic : String)
  /-- A cycle on a state whose status is not `running` (40_pipeline_engine.md R251). Safe: the spec refuses it. -/
  | notRunning
  /-- A launch outside the parameter ranges (48_cache_engine.md R471, 70_reset_and_hazards.md R700). Safe. -/
  | badConfiguration
  /-- A launch whose image names a byte that memory does not have (log 11). Safe. -/
  | badImage
  deriving DecidableEq, Repr

/-- The run status (10_state.md R52); `terminated` and `faulted` are absorbing. -/
inductive Status where
  | running
  | terminated
  | faulted (f : Fault)
  deriving DecidableEq, Repr

/-! ## Registers and memory -/

/-- The register file x0 .. x31 (R41). Entry 0 is read through `RegFile.read` as zero and never written
(DESIGN CHOICE, log 15). -/
abbrev RegFile := Vector Word 32

/-- Memory: the bytes that are not 0, by rising address; a byte not listed reads 0 (R70, R700). -/
abbrev Memory := List Host.Cell

/-! ## Control signals and latches -/

/-- The access width of a control-signal record: 0, 1, 2 or 4 bytes (R58); no access has width 0 (DEDUCED, log 12). -/
inductive Width where
  | none | byte | half | word
  deriving DecidableEq, Repr

/-- The width in bytes. -/
def Width.bytes : Width → Nat
  | .none => 0
  | .byte => 1
  | .half => 2
  | .word => 4

/-- The control-signal record (R58). -/
structure Ctl where
  uses1 : Bool
  uses2 : Bool
  readsRf : Bool
  writesRf : Bool
  memRead : Bool
  memWrite : Bool
  branch : Bool
  immOp2 : Bool
  syscall : Bool
  rs1 : Reg
  rs2 : Reg
  rd : Reg
  width : Width
  loadSigned : Bool
  deriving DecidableEq, Repr

/-- The control signals of the bubble: every flag false, every number 0 (R57). -/
def Ctl.bubble : Ctl where
  uses1 := false
  uses2 := false
  readsRf := false
  writesRf := false
  memRead := false
  memWrite := false
  branch := false
  immOp2 := false
  syscall := false
  rs1 := 0#5
  rs2 := 0#5
  rd := 0#5
  width := .none
  loadSigned := false

/-- The fetch latch IFID (R55). -/
structure IfIdLatch where
  inst : InstructionView
  pc : Word
  pc4 : Word
  deriving DecidableEq, Repr

/-- The decode latch IDEX (R55). -/
structure IdExLatch where
  inst : InstructionView
  pc : Word
  pc4 : Word
  ctl : Ctl
  imm : Word
  v1 : Word
  v2 : Word
  deriving DecidableEq, Repr

/-- The execute-output latch EXMEM (R55). -/
structure ExMemLatch where
  inst : InstructionView
  pc : Word
  ctl : Ctl
  alu : Word
  sv : Word
  taken : Bool
  target : Word
  deriving DecidableEq, Repr

/-- The writeback-output latch MEMWB (R55). -/
structure MemWbLatch where
  inst : InstructionView
  pc : Word
  ctl : Ctl
  alu : Word
  md : Word
  deriving DecidableEq, Repr

/-- The view of the bubble, `Decode(0x00000000)`: every field 0 (R57). -/
def bubbleView : InstructionView where
  op := .bubble
  fmt := .NONE
  rd := 0#5
  rs1 := 0#5
  rs2 := 0#5
  funct3 := 0#3
  funct7 := 0#7
  imm := 0#32
  word := 0#32

/-- `BUBBLE_IFID` (R57). -/
def bubbleIfId : IfIdLatch where
  inst := bubbleView
  pc := 0#32
  pc4 := 0#32

/-- `BUBBLE_IDEX` (R57). -/
def bubbleIdEx : IdExLatch where
  inst := bubbleView
  pc := 0#32
  pc4 := 0#32
  ctl := Ctl.bubble
  imm := 0#32
  v1 := 0#32
  v2 := 0#32

/-- `BUBBLE_EXMEM` (R57). -/
def bubbleExMem : ExMemLatch where
  inst := bubbleView
  pc := 0#32
  ctl := Ctl.bubble
  alu := 0#32
  sv := 0#32
  taken := false
  target := 0#32

/-- `BUBBLE_MEMWB` (R57). -/
def bubbleMemWb : MemWbLatch where
  inst := bubbleView
  pc := 0#32
  ctl := Ctl.bubble
  alu := 0#32
  md := 0#32

/-! ## Counters and cache -/

/-- The pipeline event counters (R50), unbounded (00_scope.md R13). -/
structure Counters where
  cycles : Nat
  stalls : Nat
  branchesTaken : Nat
  fwdEx : Nat
  fwdWb : Nat
  deriving DecidableEq, Repr

/-- A cache line (R61). -/
structure Line where
  valid : Bool
  tag : Nat
  block : Word
  ts : Nat
  count : Nat
  deriving DecidableEq, Repr

/-- A cache set: its logical clock and its lines in index order (R61). -/
structure CacheSet where
  clock : Nat
  lines : List Line
  deriving DecidableEq, Repr

/-- The cache state (R61): `2^S_BITS` sets of `WAYS` lines, and the three counters of R51. -/
structure CacheState where
  sets : List CacheSet
  hits : Nat
  misses : Nat
  evictions : Nat
  deriving DecidableEq, Repr

/-! ## The state -/

/-- The complete state of one instance (R40). Latches hold the committed slots (R59). `cfg` is the launch
configuration, no state of the spec's: fixed at creation and never changed (log 5). -/
structure State where
  cfg : Config
  x : RegFile
  pc : Word
  mem : Memory
  ifid : IfIdLatch
  idex : IdExLatch
  exmem : ExMemLatch
  memwb : MemWbLatch
  ctr : Counters
  cache : CacheState
  status : Status
  deriving DecidableEq, Repr

/-- A line as created: invalid (R61), its other fields 0 (R70). -/
def Line.created : Line where
  valid := false
  tag := 0
  block := 0#32
  ts := 0
  count := 0

/-- The cache as created (R70). -/
def CacheState.created (c : Config) : CacheState where
  sets := List.replicate (2 ^ c.sBits) { clock := 0, lines := List.replicate c.ways Line.created }
  hits := 0
  misses := 0
  evictions := 0

/-- Every counter 0 (R70). -/
def Counters.zero : Counters where
  cycles := 0
  stalls := 0
  branchesTaken := 0
  fwdEx := 0
  fwdWb := 0

/-- The values of R70 for a configuration, an image in canonical form, register values and a start address. -/
def State.created (c : Config) (image : Memory) (regs : RegFile) (startPc : Word) : State where
  cfg := c
  x := regs.set 0 0#32
  pc := startPc
  mem := image
  ifid := bubbleIfId
  idex := bubbleIdEx
  exmem := bubbleExMem
  memwb := bubbleMemWb
  ctr := Counters.zero
  cache := CacheState.created c
  status := .running

/-- The machine right after reset (R70): the defaults of `INIT_REGS` (all 0) and `RESET_PC` (0), an image that gives
no byte, and the configuration `Config.default` (DESIGN CHOICE, log 2, 3, 4). -/
def State.reset : State := State.created Config.default [] (Vector.replicate 32 0#32) 0#32

end Sys2Proof.Machine
end

