-- ==== Sys2Proof/Machine/Cache.lean ====
section
/-! DEFINITION. The cache engine (48_cache_engine.md): address split, probe, replacement, counters. -/

namespace Sys2Proof.Machine

/-! ## Address decomposition (R472) -/

/-- `offset(a)`: the byte offset in the block. -/
def offsetOf (c : Config) (a : Word) : Nat := a.toNat % 2 ^ c.bBits

/-- `set(a)`: the set index. -/
def setOf (c : Config) (a : Word) : Nat := a.toNat / 2 ^ c.bBits % 2 ^ c.sBits

/-- `tag(a)`: the remaining high-order bits (log 17). -/
def tagOf (c : Config) (a : Word) : Nat := a.toNat / 2 ^ (c.bBits + c.sBits)

/-- `block(a)`: the address with its offset bits cleared. -/
def blockOf (c : Config) (a : Word) : Word := (a >>> c.bBits) <<< c.bBits

/-! ## Probe results (R470, R486) -/

/-- The result of a probe. -/
inductive ProbeResult where
  | hit
  | miss (inserted : Word)
  | evict (victim inserted : Word)
  deriving DecidableEq, Repr

/-! ## Replacement (R480, R481) -/

/-- The running choice `v` is replaced by line `l` only on a strictly smaller comparison (R481). -/
def beats (p : Policy) (l v : Line) : Bool :=
  match p with
  | .lru => decide (l.ts < v.ts)
  | .lfu => decide (l.count < v.count) || (decide (l.count = v.count) && decide (l.ts < v.ts))

/-- The scan of R481 over the lines from index `i`, with the running choice `v` of index `vi`. -/
def victimScan (p : Policy) : List Line → Nat → Nat → Line → Nat
  | [], _, vi, _ => vi
  | l :: ls, i, vi, v => if beats p l v then victimScan p ls (i + 1) i l else victimScan p ls (i + 1) vi v

/-- `Victim(S, POLICY)`: the scan starts with line 0 as the victim (R481); a set without lines has none. -/
def victimIndex (p : Policy) : List Line → Option Nat
  | [] => none
  | l :: ls => some (victimScan p ls 1 0 l)

/-! ## The probe (R475) -/

/-- The line a fill or an overwrite leaves (R477, R482). -/
def filledLine (c : Config) (a : Word) (t : Nat) : Line where
  valid := true
  tag := tagOf c a
  block := blockOf c a
  ts := t
  count := 1

/-- What a probe does to the set it names, at the incremented clock, and its result (R475). -/
def probeSet (c : Config) (s : CacheSet) (a : Word) : Except Fault (CacheSet × ProbeResult) :=
  let t := s.clock + 1
  match s.lines.findIdx? fun l => l.valid && l.tag == tagOf c a with
  | some i =>
    match s.lines[i]? with
    | some l => .ok ({ clock := t, lines := s.lines.set i { l with ts := t, count := l.count + 1 } }, .hit)
    | none => .error (.internal .lineNotFound)
  | none =>
    match s.lines.findIdx? fun l => !l.valid with
    | some i => .ok ({ clock := t, lines := s.lines.set i (filledLine c a t) }, .miss (blockOf c a))
    | none =>
      match victimIndex c.policy s.lines with
      | some v =>
        match s.lines[v]? with
        | some l => .ok ({ clock := t, lines := s.lines.set v (filledLine c a t) }, .evict l.block (blockOf c a))
        | none => .error (.internal .lineNotFound)
      | none => .error (.internal .lineNotFound)

/-- The counters after a result: an EVICT is one miss and one eviction (R485; 90_conflicts.md C5). -/
def countProbe (k : CacheState) : ProbeResult → CacheState
  | .hit => { k with hits := k.hits + 1 }
  | .miss _ => { k with misses := k.misses + 1 }
  | .evict _ _ => { k with misses := k.misses + 1, evictions := k.evictions + 1 }

/-- `Probe(a)` (R475): only the set that `a` names changes. A set or line that the state lacks is an internal
consistency error (R489, log 9). -/
def probe (c : Config) (k : CacheState) (a : Word) : Except Fault (CacheState × ProbeResult) :=
  match k.sets[setOf c a]? with
  | none => .error (.internal .setNotFound)
  | some s =>
    match probeSet c s a with
    | .error f => .error f
    | .ok (s', r) => .ok (countProbe { k with sets := k.sets.set (setOf c a) s' } r, r)

end Sys2Proof.Machine
end

