-- ==== Sys2Proof/Machine/Flags.lean ====
section
/-! DEFINITION. Comparisons and branch conditions. The core has no flags (10_state.md R47): a condition is evaluated
from the two operand values in the execute stage and kept nowhere but in the latch field `taken`. -/

namespace Sys2Proof.Machine

/-- `a <s b` on `s32` values (00_scope.md R15). -/
def lessSigned (a b : Word) : Bool := decide (a.toInt < b.toInt)

/-- `a <u b` on `u32` values (R15). -/
def lessUnsigned (a b : Word) : Bool := decide (a.toNat < b.toNat)

/-- A comparison result: exactly 0 or 1 (42_alu_register.md R311). -/
def boolWord (c : Bool) : Word := if c then 1#32 else 0#32

/-! ## `Cond` (45_control_transfer.md R390) -/

def condBeq (a b : Word) : Bool := decide (a = b)
def condBne (a b : Word) : Bool := decide (a ≠ b)
def condBlt (a b : Word) : Bool := lessSigned a b
def condBge (a b : Word) : Bool := !lessSigned a b
def condBltu (a b : Word) : Bool := lessUnsigned a b
def condBgeu (a b : Word) : Bool := !lessUnsigned a b

end Sys2Proof.Machine
end

