-- ==== Sys2Proof/Machine/Control.lean ====
section
/-! DEFINITION. The control-signal generator `Ctl(i)` (40_pipeline_engine.md R206): one row of its table per class of
instructions, and the class of each mnemonic. -/

namespace Sys2Proof.Machine

/-- The flags of one row of R206's table. -/
structure CtlRow where
  uses1 : Bool := false
  uses2 : Bool := false
  writesRf : Bool := false
  memRead : Bool := false
  memWrite : Bool := false
  branch : Bool := false
  immOp2 : Bool := false
  syscall : Bool := false
  width : Width := .none
  loadSigned : Bool := false
  deriving DecidableEq, Repr

/-- A row completed with the register numbers of an instruction; the number of an absent operand is 0 (R206). -/
def CtlRow.complete (r : CtlRow) (v : InstructionView) : Ctl where
  uses1 := r.uses1
  uses2 := r.uses2
  readsRf := r.uses1 || r.uses2
  writesRf := r.writesRf
  memRead := r.memRead
  memWrite := r.memWrite
  branch := r.branch
  immOp2 := r.immOp2
  syscall := r.syscall
  rs1 := if r.uses1 then v.rs1 else 0#5
  rs2 := if r.uses2 then v.rs2 else 0#5
  rd := if r.writesRf then v.rd else 0#5
  width := r.width
  loadSigned := r.loadSigned

/-- Register-register. -/
def rowRegister : CtlRow := { uses1 := true, uses2 := true, writesRf := true }
/-- Register-immediate. -/
def rowImmediate : CtlRow := { uses1 := true, writesRf := true, immOp2 := true }
/-- Upper-immediate. -/
def rowUpper : CtlRow := { writesRf := true, immOp2 := true }
/-- Load. -/
def rowLoad (w : Width) (signed : Bool) : CtlRow :=
  { uses1 := true, writesRf := true, memRead := true, immOp2 := true, width := w, loadSigned := signed }
/-- Store. -/
def rowStore (w : Width) : CtlRow := { uses1 := true, uses2 := true, memWrite := true, immOp2 := true, width := w }
/-- Branch. -/
def rowBranch : CtlRow := { uses1 := true, uses2 := true, branch := true }
/-- Jump. -/
def rowJump : CtlRow := { writesRf := true, branch := true }
/-- Indirect jump. -/
def rowIndirect : CtlRow := { uses1 := true, writesRf := true, branch := true, immOp2 := true }
/-- System call. -/
def rowSystem : CtlRow := { syscall := true }
/-- Bubble. -/
def rowBubble : CtlRow := {}

/-- The row of each mnemonic (R206). -/
def ctlRow : Mnemonic → CtlRow
  | .add => rowRegister
  | .sub => rowRegister
  | .sll => rowRegister
  | .slt => rowRegister
  | .sltu => rowRegister
  | .xor => rowRegister
  | .srl => rowRegister
  | .sra => rowRegister
  | .or => rowRegister
  | .and => rowRegister
  | .addi => rowImmediate
  | .slti => rowImmediate
  | .sltiu => rowImmediate
  | .xori => rowImmediate
  | .ori => rowImmediate
  | .andi => rowImmediate
  | .slli => rowImmediate
  | .srli => rowImmediate
  | .srai => rowImmediate
  | .lui => rowUpper
  | .auipc => rowUpper
  | .lb => rowLoad .byte true
  | .lh => rowLoad .half true
  | .lw => rowLoad .word false
  | .lbu => rowLoad .byte false
  | .lhu => rowLoad .half false
  | .sb => rowStore .byte
  | .sh => rowStore .half
  | .sw => rowStore .word
  | .beq => rowBranch
  | .bne => rowBranch
  | .blt => rowBranch
  | .bge => rowBranch
  | .bltu => rowBranch
  | .bgeu => rowBranch
  | .jal => rowJump
  | .jalr => rowIndirect
  | .ecall => rowSystem
  | .bubble => rowBubble
  | .mul => rowRegister
  | .mulh => rowRegister
  | .mulhsu => rowRegister
  | .mulhu => rowRegister
  | .div => rowRegister
  | .divu => rowRegister
  | .rem => rowRegister
  | .remu => rowRegister

/-- `Ctl(i)` (R206). -/
def ctlOf (v : InstructionView) : Ctl := (ctlRow v.op).complete v

end Sys2Proof.Machine
end

