-- ==== Sys2Proof/Machine/Ops.lean ====
section
/-! DEFINITION. The named operations over registers and memory (10_state.md R41; 20_memory.md), and what a fatal
condition does to the state (60_exceptions.md R610), the core's only form of exception. -/

namespace Sys2Proof.Machine

/-! ## The register file (R41) -/

/-- `x[i]`: register 0 reads 0 (R41, R16). -/
def RegFile.read (x : RegFile) (r : Reg) : Word :=
  if r = 0#5 then 0#32 else x[r.toNat]

/-- `x[i] <- v`: a write with i = 0 is discarded (R41, R16). -/
def RegFile.write (x : RegFile) (r : Reg) (v : Word) : RegFile :=
  if r = 0#5 then x else x.set r.toNat v

/-! ## Bytes of memory -/

/-- The byte at an address; a byte not listed is 0 (R70). -/
def Memory.byte : Memory → Nat → Byte
  | [], _ => 0#8
  | (k, b) :: m, a => if a = k then b else Memory.byte m a

/-- One byte written, the canonical form kept: a 0 is not listed. -/
def Memory.put : Memory → Nat → Byte → Memory
  | [], a, b => if b = 0#8 then [] else [(a, b)]
  | (k, c) :: m, a, b =>
    if a < k then (if b = 0#8 then (k, c) :: m else (a, b) :: (k, c) :: m)
    else if a = k then (if b = 0#8 then m else (a, b) :: m)
    else (k, c) :: Memory.put m a b

/-- Every listed address is above `lo` when `lo` is given, addresses rise strictly, and no listed byte is 0. -/
def Memory.wfAbove : Option Nat → Memory → Bool
  | _, [] => true
  | lo, (k, b) :: m => (match lo with | none => true | some l => decide (l < k)) && decide (b ≠ 0#8) && Memory.wfAbove (some k) m

/-- The canonical form of memory: addresses strictly rising, no listed byte equal to what an unlisted one reads. -/
def Memory.wf (m : Memory) : Bool := Memory.wfAbove none m

/-- No byte is listed at or above `size`: those addresses do not exist (R100). -/
def Memory.within (m : Memory) (size : Nat) : Bool := m.all fun c => decide (c.1 < size)

/-! ## Accesses (R17, R103) -/

/-- The little-endian value of the bytes at `a`, zero-extended to a word (R103). -/
def Memory.readWidth (m : Memory) (a : Nat) : Width → Word
  | .none => 0#32
  | .byte => (m.byte a).zeroExtend 32
  | .half => (m.byte (a + 1) ++ m.byte a).zeroExtend 32
  | .word => m.byte (a + 3) ++ m.byte (a + 2) ++ m.byte (a + 1) ++ m.byte a

/-- The low bytes of `v` written little-endian at `a` (R103). -/
def Memory.writeWidth (m : Memory) (a : Nat) (v : Word) : Width → Memory
  | .none => m
  | .byte => m.put a (v.extractLsb' 0 8)
  | .half => (m.put a (v.extractLsb' 0 8)).put (a + 1) (v.extractLsb' 8 8)
  | .word =>
    (((m.put a (v.extractLsb' 0 8)).put (a + 1) (v.extractLsb' 8 8)).put (a + 2) (v.extractLsb' 16 8)).put (a + 3)
      (v.extractLsb' 24 8)

/-- The check of one access: alignment first (R106), then bounds on integers (R107), in this order (R108). -/
def checkAccess (memSize : Nat) (kind : AccessKind) (a : Word) (n : Nat) : Option Fault :=
  if a.toNat % n ≠ 0 then some (.misaligned kind a n)
  else if memSize < a.toNat + n then some (.bounds kind a n)
  else none

/-- `MemRead(a, n)` (R17): the checks, then the value. -/
def memRead (memSize : Nat) (m : Memory) (kind : AccessKind) (a : Word) (n : Width) : Except Fault Word :=
  match checkAccess memSize kind a n.bytes with
  | some f => .error f
  | none => .ok (m.readWidth a.toNat n)

/-- `MemWrite(a, n, v)` (R17): the checks, then all bytes or none. -/
def memWrite (memSize : Nat) (m : Memory) (a : Word) (n : Width) (v : Word) : Except Fault Memory :=
  match checkAccess memSize .store a n.bytes with
  | some f => .error f
  | none => .ok (m.writeWidth a.toNat v n)

/-! ## Fatal conditions (R600, R610) -/

/-- The state after a fatal condition: nothing of the cycle is committed and the status records the condition (R52,
R610). There is no handler, no saved register and no return from it (R621, R622). DESIGN CHOICE: the fields the host reads
afterwards are those before the cycle (log 6). -/
def State.afterFatal (s : State) (f : Fault) : State := { s with status := .faulted f }

end Sys2Proof.Machine
end

