-- ==== Sys2Proof/Machine/Operands.lean ====
section
/-! DEFINITION. The hazard detection unit and the forwarding unit (41_hazard_forwarding.md), and the operand forms of
the execute stage (40_pipeline_engine.md R218, 30_encoding.md R171). All read the state at the start of the cycle
(R202). -/

namespace Sys2Proof.Machine

/-! ## Hazard detection (R261) -/

/-- A load in the execute stage whose destination the instruction in the decode stage reads. -/
def hazardDetect (s : State) : Bool :=
  let p := s.idex.ctl
  let cf := ctlOf s.ifid.inst
  p.memRead && p.writesRf && decide (p.rd ≠ 0#5) && (decide (cf.rs1 = p.rd) || decide (cf.rs2 = p.rd))

/-! ## Forwarding (R271) -/

/-- Where an operand came from. -/
inductive FwdSource where
  | none | ex | wb
  deriving DecidableEq, Repr

/-- The value an instruction in MEMWB writes to its register (R230, R274). -/
def writebackValue (w : MemWbLatch) : Word := if w.ctl.memRead then w.md else w.alu

/-- The EXMEM latch can supply register `r`: never a load, never x0 (R272, R273, R275). -/
def suppliesEx (e : ExMemLatch) (r : Reg) : Bool :=
  e.ctl.writesRf && decide (e.ctl.rd ≠ 0#5) && !e.ctl.memRead && decide (e.ctl.rd = r)

/-- The MEMWB latch can supply register `r`. -/
def suppliesWb (w : MemWbLatch) (r : Reg) : Bool :=
  w.ctl.writesRf && decide (w.ctl.rd ≠ 0#5) && decide (w.ctl.rd = r)

/-- The selection of R271 for an operand of register number `r` whose decoded value is `base`: the nearer stage first. -/
def forwardFrom (e : ExMemLatch) (w : MemWbLatch) (r : Reg) (base : Word) : Word × FwdSource :=
  if suppliesEx e r then (e.alu, .ex)
  else if suppliesWb w r then (writebackValue w, .wb)
  else (base, .none)

/-- `Forward(s, 1)` (R271). -/
def forward1 (s : State) : Word × FwdSource := forwardFrom s.exmem s.memwb s.idex.ctl.rs1 s.idex.v1

/-- `Forward(s, 2)` (R271). -/
def forward2 (s : State) : Word × FwdSource := forwardFrom s.exmem s.memwb s.idex.ctl.rs2 s.idex.v2

/-- How many of the two operands came from a source (R245). -/
def countSource (k : FwdSource) (a b : FwdSource) : Nat := (if a = k then 1 else 0) + (if b = k then 1 else 0)

/-! ## Operand forms of the execute stage -/

/-- Operand 2 of the arithmetic unit: the immediate, or the forwarded second register value (R218). -/
def operandB (d : IdExLatch) (op2 : Word) : Word := if d.ctl.immOp2 then d.imm else op2

/-- The shift amount: the low 5 bits of operand 2 (42_alu_register.md R311). -/
def shiftAmount (b : Word) : Nat := (b.extractLsb' 0 5).toNat

/-- The effective address: base plus displacement, modulo 2^32 (44_load_store.md R360, R370, R375). -/
def effectiveAddress (d : IdExLatch) (op1 : Word) : Word := op1 + d.imm

/-- The pc-relative target (45_control_transfer.md R390, R400). -/
def relativeTarget (d : IdExLatch) : Word := d.pc + d.imm

/-- The return address, the instruction's own address + 4 (R400, R401). -/
def returnAddress (d : IdExLatch) : Word := d.pc + 4#32

/-- The loaded value extended to a word (40_pipeline_engine.md R220). -/
def extendLoad (w : Width) (signed : Bool) (v : Word) : Word :=
  match w, signed with
  | .byte, true => (v.extractLsb' 0 8).signExtend 32
  | .half, true => (v.extractLsb' 0 16).signExtend 32
  | .none, true => v
  | .word, true => v
  | _, false => v

end Sys2Proof.Machine
end

