-- ==== Sys2Proof/Machine/Execute.lean ====
section
/-! DEFINITION. What each instruction does in the execute stage (40_pipeline_engine.md R219): its arithmetic result,
whether it redirects, and its target. One definition per instruction, by the rule of its family. -/

namespace Sys2Proof.Machine

/-- What the execute stage computes for one instruction: `alu`, `taken` and `target` of R219. -/
structure ExecOut where
  alu : Word
  taken : Bool
  target : Word
  deriving DecidableEq, Repr

/-- A result and no redirect. -/
def ExecOut.value (v : Word) : ExecOut where
  alu := v
  taken := false
  target := 0#32

/-- A conditional branch: no result, the condition and the target (R219, R390). -/
def ExecOut.branch (taken : Bool) (target : Word) : ExecOut where
  alu := 0#32
  taken := taken
  target := target

/-- A jump: the return address and the target, always taken (R219, R400, R401). -/
def ExecOut.jump (link target : Word) : ExecOut where
  alu := link
  taken := true
  target := target

/-! ## Register-register (42_alu_register.md) -/

/-- R301 ADD: `a + b` modulo 2^32. -/
def executeAdd (d : IdExLatch) (op1 op2 : Word) : ExecOut :=
  .value (op1 + operandB d op2)

/-- R302 SUB: `a - b` modulo 2^32. -/
def executeSub (d : IdExLatch) (op1 op2 : Word) : ExecOut :=
  .value (op1 - operandB d op2)

/-- R303 SLL: `a << b[4:0]`. -/
def executeSll (d : IdExLatch) (op1 op2 : Word) : ExecOut :=
  .value (op1 <<< shiftAmount (operandB d op2))

/-- R304 SLT: 1 when `a <s b`, else 0. -/
def executeSlt (d : IdExLatch) (op1 op2 : Word) : ExecOut :=
  .value (boolWord (lessSigned op1 (operandB d op2)))

/-- R305 SLTU: 1 when `a <u b`, else 0. -/
def executeSltu (d : IdExLatch) (op1 op2 : Word) : ExecOut :=
  .value (boolWord (lessUnsigned op1 (operandB d op2)))

/-- R306 XOR. -/
def executeXor (d : IdExLatch) (op1 op2 : Word) : ExecOut :=
  .value (op1 ^^^ operandB d op2)

/-- R307 SRL: `a >>u b[4:0]`. -/
def executeSrl (d : IdExLatch) (op1 op2 : Word) : ExecOut :=
  .value (op1 >>> shiftAmount (operandB d op2))

/-- R308 SRA: `a >>s b[4:0]`. -/
def executeSra (d : IdExLatch) (op1 op2 : Word) : ExecOut :=
  .value (op1.sshiftRight (shiftAmount (operandB d op2)))

/-- R309 OR. -/
def executeOr (d : IdExLatch) (op1 op2 : Word) : ExecOut :=
  .value (op1 ||| operandB d op2)

/-- R310 AND. -/
def executeAnd (d : IdExLatch) (op1 op2 : Word) : ExecOut :=
  .value (op1 &&& operandB d op2)

/-! ## Register-immediate and upper-immediate (43_alu_immediate.md) -/

/-- R331 ADDI: `a + imm` modulo 2^32. -/
def executeAddi (d : IdExLatch) (op1 op2 : Word) : ExecOut :=
  .value (op1 + operandB d op2)

/-- R332 SLTI: 1 when `a <s imm`, else 0. -/
def executeSlti (d : IdExLatch) (op1 op2 : Word) : ExecOut :=
  .value (boolWord (lessSigned op1 (operandB d op2)))

/-- R333 SLTIU: 1 when `a <u imm` with the sign-extended immediate, else 0. -/
def executeSltiu (d : IdExLatch) (op1 op2 : Word) : ExecOut :=
  .value (boolWord (lessUnsigned op1 (operandB d op2)))

/-- R334 XORI. -/
def executeXori (d : IdExLatch) (op1 op2 : Word) : ExecOut :=
  .value (op1 ^^^ operandB d op2)

/-- R335 ORI. -/
def executeOri (d : IdExLatch) (op1 op2 : Word) : ExecOut :=
  .value (op1 ||| operandB d op2)

/-- R336 ANDI. -/
def executeAndi (d : IdExLatch) (op1 op2 : Word) : ExecOut :=
  .value (op1 &&& operandB d op2)

/-- R337 SLLI: `a << shamt`. -/
def executeSlli (d : IdExLatch) (op1 op2 : Word) : ExecOut :=
  .value (op1 <<< shiftAmount (operandB d op2))

/-- R338 SRLI: `a >>u shamt`. -/
def executeSrli (d : IdExLatch) (op1 op2 : Word) : ExecOut :=
  .value (op1 >>> shiftAmount (operandB d op2))

/-- R339 SRAI: `a >>s shamt`. -/
def executeSrai (d : IdExLatch) (op1 op2 : Word) : ExecOut :=
  .value (op1.sshiftRight (shiftAmount (operandB d op2)))

/-- R340 LUI: the immediate. -/
def executeLui (d : IdExLatch) : ExecOut :=
  .value d.imm

/-- R341 AUIPC: the instruction's own address plus the immediate. -/
def executeAuipc (d : IdExLatch) : ExecOut :=
  .value (d.pc + d.imm)

/-! ## Loads and stores: the effective address (44_load_store.md R360, R370) -/

/-- R361 LB. -/
def executeLb (d : IdExLatch) (op1 : Word) : ExecOut :=
  .value (effectiveAddress d op1)

/-- R362 LH. -/
def executeLh (d : IdExLatch) (op1 : Word) : ExecOut :=
  .value (effectiveAddress d op1)

/-- R363 LW. -/
def executeLw (d : IdExLatch) (op1 : Word) : ExecOut :=
  .value (effectiveAddress d op1)

/-- R364 LBU. -/
def executeLbu (d : IdExLatch) (op1 : Word) : ExecOut :=
  .value (effectiveAddress d op1)

/-- R365 LHU. -/
def executeLhu (d : IdExLatch) (op1 : Word) : ExecOut :=
  .value (effectiveAddress d op1)

/-- R371 SB. -/
def executeSb (d : IdExLatch) (op1 : Word) : ExecOut :=
  .value (effectiveAddress d op1)

/-- R372 SH. -/
def executeSh (d : IdExLatch) (op1 : Word) : ExecOut :=
  .value (effectiveAddress d op1)

/-- R373 SW. -/
def executeSw (d : IdExLatch) (op1 : Word) : ExecOut :=
  .value (effectiveAddress d op1)

/-! ## Branches and jumps (45_control_transfer.md) -/

/-- R391 BEQ. -/
def executeBeq (d : IdExLatch) (op1 op2 : Word) : ExecOut :=
  .branch (condBeq op1 op2) (relativeTarget d)

/-- R392 BNE. -/
def executeBne (d : IdExLatch) (op1 op2 : Word) : ExecOut :=
  .branch (condBne op1 op2) (relativeTarget d)

/-- R393 BLT. -/
def executeBlt (d : IdExLatch) (op1 op2 : Word) : ExecOut :=
  .branch (condBlt op1 op2) (relativeTarget d)

/-- R394 BGE. -/
def executeBge (d : IdExLatch) (op1 op2 : Word) : ExecOut :=
  .branch (condBge op1 op2) (relativeTarget d)

/-- R395 BLTU. -/
def executeBltu (d : IdExLatch) (op1 op2 : Word) : ExecOut :=
  .branch (condBltu op1 op2) (relativeTarget d)

/-- R396 BGEU. -/
def executeBgeu (d : IdExLatch) (op1 op2 : Word) : ExecOut :=
  .branch (condBgeu op1 op2) (relativeTarget d)

/-- R400 JAL: link and a pc-relative target. -/
def executeJal (d : IdExLatch) : ExecOut :=
  .jump (returnAddress d) (relativeTarget d)

/-- R401 JALR: link and base plus offset; bit 0 of the target is not cleared. -/
def executeJalr (d : IdExLatch) (op1 : Word) : ExecOut :=
  .jump (returnAddress d) (op1 + d.imm)

/-! ## System (46_system.md) -/

/-- R420 ECALL: nothing in the execute stage. -/
def executeEcall : ExecOut := .value 0#32

/-- R425 BUBBLE: nothing in any stage. -/
def executeBubble : ExecOut := .value 0#32

/-! ## Multiply and divide (47_muldiv.md) -/

/-- R441 MUL: the low word of the product. -/
def executeMul (d : IdExLatch) (op1 op2 : Word) : ExecOut :=
  .value (op1 * operandB d op2)

/-- R442 MULH: the high word of the signed product (the shift of integers rounds down). -/
def executeMulh (d : IdExLatch) (op1 op2 : Word) : ExecOut :=
  .value (BitVec.ofInt 32 (op1.toInt * (operandB d op2).toInt / 2 ^ 32))

/-- R443 MULHSU: the high word, the first operand signed and the second unsigned. -/
def executeMulhsu (d : IdExLatch) (op1 op2 : Word) : ExecOut :=
  .value (BitVec.ofInt 32 (op1.toInt * ((operandB d op2).toNat : Int) / 2 ^ 32))

/-- R444 MULHU: the high word of the unsigned product. -/
def executeMulhu (d : IdExLatch) (op1 op2 : Word) : ExecOut :=
  .value (BitVec.ofNat 32 (op1.toNat * (operandB d op2).toNat / 2 ^ 32))

/-- The signed overflow of R449: the most negative dividend by -1. -/
def divOverflow (a b : Word) : Bool := decide (a = 0x80000000#32) && decide (b = 0xFFFFFFFF#32)

/-- A corner case of R449: `Fatal(ARITH)` with `DIV_CORNER = fault`, else the RISC-V value. The condition is never
raised without `M_EXT` (60_exceptions.md R607; log 14). -/
def divCornerCase (c : Config) (d : IdExLatch) (a b riscv : Word) : Except Fault ExecOut :=
  if c.mExt && decide (c.divCorner = .fault) then .error (.arith d.pc a b) else .ok (.value riscv)

/-- R445 DIV: signed, rounding toward zero; corners by R449. -/
def executeDiv (c : Config) (d : IdExLatch) (op1 op2 : Word) : Except Fault ExecOut :=
  let b := operandB d op2
  if b = 0#32 then divCornerCase c d op1 b 0xFFFFFFFF#32
  else if divOverflow op1 b then divCornerCase c d op1 b 0x80000000#32
  else .ok (.value (BitVec.ofInt 32 (op1.toInt.tdiv b.toInt)))

/-- R446 DIVU: unsigned, rounding down; divisor 0 by R449. -/
def executeDivu (c : Config) (d : IdExLatch) (op1 op2 : Word) : Except Fault ExecOut :=
  let b := operandB d op2
  if b = 0#32 then divCornerCase c d op1 b 0xFFFFFFFF#32
  else .ok (.value (BitVec.ofNat 32 (op1.toNat / b.toNat)))

/-- R447 REM: signed, the sign of the dividend; corners by R449. -/
def executeRem (c : Config) (d : IdExLatch) (op1 op2 : Word) : Except Fault ExecOut :=
  let b := operandB d op2
  if b = 0#32 then divCornerCase c d op1 b op1
  else if divOverflow op1 b then divCornerCase c d op1 b 0#32
  else .ok (.value (BitVec.ofInt 32 (op1.toInt - b.toInt * op1.toInt.tdiv b.toInt)))

/-- R448 REMU: unsigned; divisor 0 by R449. -/
def executeRemu (c : Config) (d : IdExLatch) (op1 op2 : Word) : Except Fault ExecOut :=
  let b := operandB d op2
  if b = 0#32 then divCornerCase c d op1 b op1
  else .ok (.value (BitVec.ofNat 32 (op1.toNat % b.toNat)))

/-! ## The dispatch of the execute stage (R219) -/

/-- The execute-stage meaning of the instruction in IDEX. -/
def executeOp (c : Config) (d : IdExLatch) (op1 op2 : Word) : Except Fault ExecOut :=
  match d.inst.op with
  | .add => .ok (executeAdd d op1 op2)
  | .sub => .ok (executeSub d op1 op2)
  | .sll => .ok (executeSll d op1 op2)
  | .slt => .ok (executeSlt d op1 op2)
  | .sltu => .ok (executeSltu d op1 op2)
  | .xor => .ok (executeXor d op1 op2)
  | .srl => .ok (executeSrl d op1 op2)
  | .sra => .ok (executeSra d op1 op2)
  | .or => .ok (executeOr d op1 op2)
  | .and => .ok (executeAnd d op1 op2)
  | .addi => .ok (executeAddi d op1 op2)
  | .slti => .ok (executeSlti d op1 op2)
  | .sltiu => .ok (executeSltiu d op1 op2)
  | .xori => .ok (executeXori d op1 op2)
  | .ori => .ok (executeOri d op1 op2)
  | .andi => .ok (executeAndi d op1 op2)
  | .slli => .ok (executeSlli d op1 op2)
  | .srli => .ok (executeSrli d op1 op2)
  | .srai => .ok (executeSrai d op1 op2)
  | .lui => .ok (executeLui d)
  | .auipc => .ok (executeAuipc d)
  | .lb => .ok (executeLb d op1)
  | .lh => .ok (executeLh d op1)
  | .lw => .ok (executeLw d op1)
  | .lbu => .ok (executeLbu d op1)
  | .lhu => .ok (executeLhu d op1)
  | .sb => .ok (executeSb d op1)
  | .sh => .ok (executeSh d op1)
  | .sw => .ok (executeSw d op1)
  | .beq => .ok (executeBeq d op1 op2)
  | .bne => .ok (executeBne d op1 op2)
  | .blt => .ok (executeBlt d op1 op2)
  | .bge => .ok (executeBge d op1 op2)
  | .bltu => .ok (executeBltu d op1 op2)
  | .bgeu => .ok (executeBgeu d op1 op2)
  | .jal => .ok (executeJal d)
  | .jalr => .ok (executeJalr d op1)
  | .ecall => .ok executeEcall
  | .bubble => .ok executeBubble
  | .mul => .ok (executeMul d op1 op2)
  | .mulh => .ok (executeMulh d op1 op2)
  | .mulhsu => .ok (executeMulhsu d op1 op2)
  | .mulhu => .ok (executeMulhu d op1 op2)
  | .div => executeDiv c d op1 op2
  | .divu => executeDivu c d op1 op2
  | .rem => executeRem c d op1 op2
  | .remu => executeRemu c d op1 op2

end Sys2Proof.Machine
end

