-- ==== Sys2Proof/Machine/Pipeline.lean ====
section
/-! DEFINITION. The pipeline engine (40_pipeline_engine.md): the five stage functions, the epilogue, the commit, and
the cycle made of them (R201). -/

namespace Sys2Proof.Machine

/-! ## Memory stage (R220, R221, R222) -/

/-- What the memory stage hands on: the memory, the cache, the probe result for the host and MEMWB's incoming slot.
The redirect is `EXMEM.taken` with `EXMEM.target` (R221). -/
structure MemOut where
  mem : Memory
  cache : CacheState
  probe : Option ProbeResult
  latch : MemWbLatch
  deriving DecidableEq, Repr

/-- One probe per load or store when `MEM_PROBE`, after the access's checks (R119, R222). -/
def probeAccess (s : State) (a : Word) : Except Fault (CacheState × Option ProbeResult) :=
  if s.cfg.memProbe then
    match probe s.cfg s.cache a with
    | .error f => .error f
    | .ok (k, r) => .ok (k, some r)
  else .ok (s.cache, none)

/-- MEMWB's incoming slot with the loaded value `md` (R220). -/
def memWbOf (e : ExMemLatch) (md : Word) : MemWbLatch where
  inst := e.inst
  pc := e.pc
  ctl := e.ctl
  alu := e.alu
  md := md

/-- A load in the memory stage: read, extend, probe (R220). -/
def memoryLoad (s : State) : Except Fault MemOut :=
  let e := s.exmem
  match memRead s.cfg.memSize s.mem .load e.alu e.ctl.width with
  | .error f => .error f
  | .ok v =>
    match probeAccess s e.alu with
    | .error f => .error f
    | .ok (k, r) => .ok { mem := s.mem, cache := k, probe := r, latch := memWbOf e (extendLoad e.ctl.width e.ctl.loadSigned v) }

/-- A store in the memory stage: write, probe (R220). -/
def memoryStore (s : State) : Except Fault MemOut :=
  let e := s.exmem
  match memWrite s.cfg.memSize s.mem e.alu e.ctl.width e.sv with
  | .error f => .error f
  | .ok m =>
    match probeAccess s e.alu with
    | .error f => .error f
    | .ok (k, r) => .ok { mem := m, cache := k, probe := r, latch := memWbOf e 0#32 }

/-- `MemoryStage` (R220). -/
def memoryStage (s : State) : Except Fault MemOut :=
  if s.exmem.ctl.memRead then memoryLoad s
  else if s.exmem.ctl.memWrite then memoryStore s
  else .ok { mem := s.mem, cache := s.cache, probe := none, latch := memWbOf s.exmem 0#32 }

/-! ## Writeback stage (R230) -/

/-- The register file after the writeback stage: at most one register written, never x0 (R230). -/
def writebackRegs (s : State) : RegFile :=
  if s.memwb.ctl.writesRf then s.x.write s.memwb.ctl.rd (writebackValue s.memwb) else s.x

/-- `WritebackStage` (R230): the register file and the termination indication; an unsupported system-call code is
fatal (46_system.md R421, R422). -/
def writebackStage (s : State) : Except Fault (RegFile × Bool) :=
  let x := writebackRegs s
  if s.memwb.ctl.syscall then
    if x.read s.cfg.exitArgReg = s.cfg.exitCode then .ok (x, true)
    else .error (.syscall s.memwb.pc (x.read s.cfg.exitArgReg))
  else .ok (x, false)

/-! ## Fetch, decode and execute stages -/

/-- The memory the fetch stage reads (R204): after the store of this cycle with `STORE_BEFORE_FETCH`, the old memory
when the memory stage raises (R205). -/
def fetchMemory (s : State) : Memory :=
  if s.cfg.storeBeforeFetch then
    match memoryStage s with
    | .ok o => o.mem
    | .error _ => s.mem
  else s.mem

/-- The fetch stage's read and decode of the word at `pc` (R210): access faults before a decode error (R615). -/
def fetchInstr (s : State) : Except Fault Instr :=
  match memRead s.cfg.memSize (fetchMemory s) .fetch s.pc .word with
  | .error f => .error f
  | .ok w =>
    match decode s.cfg.mExt w with
    | .ok i => .ok i
    | .error _ => .error (.decode s.pc w)

/-- IFID's incoming slot (R210); a fetched bubble keeps its address (DEDUCED, log 16). -/
def fetchLatch (pc : Word) (v : InstructionView) : IfIdLatch where
  inst := v
  pc := pc
  pc4 := pc + 4#32

/-- `DecodeStage` (R215): control signals, immediate, and both source registers. -/
def decodeStage (f : IfIdLatch) (x : RegFile) : IdExLatch :=
  let c := ctlOf f.inst
  { inst := f.inst, pc := f.pc, pc4 := f.pc4, ctl := c, imm := f.inst.imm, v1 := x.read c.rs1, v2 := x.read c.rs2 }

/-- The register file the decode stage reads (R204). -/
def decodeRegs (s : State) : RegFile := if s.cfg.rfWbBeforeDecode then writebackRegs s else s.x

/-- `ExecuteStage` (R219) on the forwarded operands. -/
def executeStage (c : Config) (d : IdExLatch) (op1 op2 : Word) : Except Fault ExMemLatch :=
  match executeOp c d op1 op2 with
  | .error f => .error f
  | .ok o =>
    .ok { inst := d.inst, pc := d.pc, ctl := d.ctl, alu := o.alu, sv := op2, taken := o.taken, target := o.target }

/-! ## Epilogue and commit (R240, R245) -/

/-- The program counter after the cycle (R240, R45). -/
def nextPc (s : State) : Word :=
  if s.exmem.taken then s.exmem.target
  else if hazardDetect s then s.pc
  else s.pc + 4#32

/-- IFID after the epilogue: flushed, held, or the fetched instruction (R240). -/
def nextIfId (s : State) (v : InstructionView) : IfIdLatch :=
  if s.exmem.taken then bubbleIfId
  else if hazardDetect s then s.ifid
  else fetchLatch s.pc v

/-- IDEX after the epilogue: flushed, bubbled by a stall, or the decoded instruction (R240, R217). -/
def nextIdEx (s : State) : IdExLatch :=
  if s.exmem.taken then bubbleIdEx
  else if hazardDetect s then bubbleIdEx
  else decodeStage s.ifid (decodeRegs s)

/-- EXMEM after the epilogue: flushed, or the executed instruction (R240). -/
def nextExMem (s : State) (e : ExMemLatch) : ExMemLatch :=
  if s.exmem.taken then bubbleExMem else e

/-- The counters after the cycle (R245): stalls and forwards count even when a redirect flushes them. -/
def nextCounters (s : State) : Counters where
  cycles := s.ctr.cycles + 1
  stalls := s.ctr.stalls + (if hazardDetect s then 1 else 0)
  branchesTaken := s.ctr.branchesTaken + (if s.exmem.taken then 1 else 0)
  fwdEx := s.ctr.fwdEx + countSource .ex (forward1 s).2 (forward2 s).2
  fwdWb := s.ctr.fwdWb + countSource .wb (forward1 s).2 (forward2 s).2

/-- The state a cycle commits (R245), from what its stages produced. -/
def commit (s : State) (v : InstructionView) (e : ExMemLatch) (m : MemOut) (x : RegFile) (term : Bool) : State where
  cfg := s.cfg
  x := x
  pc := nextPc s
  mem := m.mem
  ifid := nextIfId s v
  idex := nextIdEx s
  exmem := nextExMem s e
  memwb := m.latch
  ctr := nextCounters s
  cache := m.cache
  status := if term then .terminated else .running

/-! ## The cycle (R200, R201) -/

/-- What a cycle that commits answers: the state, the termination flag (R250) and the memory stage's probe result
(R222). -/
structure CycleResult where
  state : State
  term : Bool
  probe : Option ProbeResult
  deriving DecidableEq, Repr

/-- `Cycle(s)` (R201) when its fetch stage delivers the view `v`. The stages are evaluated in the order in which their
faults are reported: execute, memory, writeback (R205). -/
def cycle (v : InstructionView) (s : State) : Except Fault CycleResult :=
  match executeStage s.cfg s.idex (forward1 s).1 (forward2 s).1 with
  | .error f => .error f
  | .ok e =>
    match memoryStage s with
    | .error f => .error f
    | .ok m =>
      match writebackStage s with
      | .error f => .error f
      | .ok (x, term) => .ok { state := commit s v e m x term, term := term, probe := m.probe }

/-- The cycle of `s` in which the fetch stage delivers the instruction `i`, the one shape of every meaning: `i` enters
IFID and every instruction in flight moves on. A state that is not running is refused (R251); a row that the machine
does not have is a decode error of the fetch stage (30_encoding.md R160; log 7). -/
def enterPipeline (i : Instr) (s : State) : Host.Outcome State Fault Refusal :=
  match s.status with
  | .running =>
    if i.admitted s.cfg.mExt then
      match cycle (viewOf i) s with
      | .error f => .fault f
      | .ok r => .next r.state
    else .fault (.decode s.pc (encode i))
  | .terminated => .refused .notRunning
  | .faulted _ => .refused .notRunning

end Sys2Proof.Machine
end

