-- ==== Sys2Proof/Machine/AluImmediate.lean ====
section
/-! DEFINITION. The meanings of the register-immediate and upper-immediate instructions (43_alu_immediate.md): each is the
whole cycle in which the fetch stage delivers the instruction (40_pipeline_engine.md R201; log 1). In the cycles after it, decode reads `x[rs1]` when the format has it, execute computes the result from the immediate,
writeback does `x[rd] <- result` unless rd = 0 (R330). -/

namespace Sys2Proof.Machine

/-- R331 ADDI: control row `ctlRow .addi`, execute stage `executeAddi`. -/
def execAddi (rd rs1 : Reg) (imm : BitVec 12) (s : State) : Host.Outcome State Fault Refusal :=
  enterPipeline (.addi rd rs1 imm) s

/-- R332 SLTI: control row `ctlRow .slti`, execute stage `executeSlti`. -/
def execSlti (rd rs1 : Reg) (imm : BitVec 12) (s : State) : Host.Outcome State Fault Refusal :=
  enterPipeline (.slti rd rs1 imm) s

/-- R333 SLTIU: control row `ctlRow .sltiu`, execute stage `executeSltiu`. -/
def execSltiu (rd rs1 : Reg) (imm : BitVec 12) (s : State) : Host.Outcome State Fault Refusal :=
  enterPipeline (.sltiu rd rs1 imm) s

/-- R334 XORI: control row `ctlRow .xori`, execute stage `executeXori`. -/
def execXori (rd rs1 : Reg) (imm : BitVec 12) (s : State) : Host.Outcome State Fault Refusal :=
  enterPipeline (.xori rd rs1 imm) s

/-- R335 ORI: control row `ctlRow .ori`, execute stage `executeOri`. -/
def execOri (rd rs1 : Reg) (imm : BitVec 12) (s : State) : Host.Outcome State Fault Refusal :=
  enterPipeline (.ori rd rs1 imm) s

/-- R336 ANDI: control row `ctlRow .andi`, execute stage `executeAndi`. -/
def execAndi (rd rs1 : Reg) (imm : BitVec 12) (s : State) : Host.Outcome State Fault Refusal :=
  enterPipeline (.andi rd rs1 imm) s

/-- R337 SLLI: control row `ctlRow .slli`, execute stage `executeSlli`. -/
def execSlli (rd rs1 : Reg) (shamt : BitVec 5) (s : State) : Host.Outcome State Fault Refusal :=
  enterPipeline (.slli rd rs1 shamt) s

/-- R338 SRLI: control row `ctlRow .srli`, execute stage `executeSrli`. -/
def execSrli (rd rs1 : Reg) (shamt : BitVec 5) (s : State) : Host.Outcome State Fault Refusal :=
  enterPipeline (.srli rd rs1 shamt) s

/-- R339 SRAI: control row `ctlRow .srai`, execute stage `executeSrai`. -/
def execSrai (rd rs1 : Reg) (shamt : BitVec 5) (s : State) : Host.Outcome State Fault Refusal :=
  enterPipeline (.srai rd rs1 shamt) s

/-- R340 LUI: control row `ctlRow .lui`, execute stage `executeLui`. -/
def execLui (rd : Reg) (imm20 : BitVec 20) (s : State) : Host.Outcome State Fault Refusal :=
  enterPipeline (.lui rd imm20) s

/-- R341 AUIPC: control row `ctlRow .auipc`, execute stage `executeAuipc`. -/
def execAuipc (rd : Reg) (imm20 : BitVec 20) (s : State) : Host.Outcome State Fault Refusal :=
  enterPipeline (.auipc rd imm20) s

end Sys2Proof.Machine
end

