-- ==== Sys2Proof/Machine/AluRegister.lean ====
section
/-! DEFINITION. The meanings of the register-register instructions (42_alu_register.md): each is the
whole cycle in which the fetch stage delivers the instruction (40_pipeline_engine.md R201; log 1). In the cycles after it, decode reads `x[rs1]` and `x[rs2]`, execute computes the result, writeback does
`x[rd] <- result` unless rd = 0 (R300). -/

namespace Sys2Proof.Machine

/-- R301 ADD: control row `ctlRow .add`, execute stage `executeAdd`. -/
def execAdd (rd rs1 rs2 : Reg) (s : State) : Host.Outcome State Fault Refusal :=
  enterPipeline (.add rd rs1 rs2) s

/-- R302 SUB: control row `ctlRow .sub`, execute stage `executeSub`. -/
def execSub (rd rs1 rs2 : Reg) (s : State) : Host.Outcome State Fault Refusal :=
  enterPipeline (.sub rd rs1 rs2) s

/-- R303 SLL: control row `ctlRow .sll`, execute stage `executeSll`. -/
def execSll (rd rs1 rs2 : Reg) (s : State) : Host.Outcome State Fault Refusal :=
  enterPipeline (.sll rd rs1 rs2) s

/-- R304 SLT: control row `ctlRow .slt`, execute stage `executeSlt`. -/
def execSlt (rd rs1 rs2 : Reg) (s : State) : Host.Outcome State Fault Refusal :=
  enterPipeline (.slt rd rs1 rs2) s

/-- R305 SLTU: control row `ctlRow .sltu`, execute stage `executeSltu`. -/
def execSltu (rd rs1 rs2 : Reg) (s : State) : Host.Outcome State Fault Refusal :=
  enterPipeline (.sltu rd rs1 rs2) s

/-- R306 XOR: control row `ctlRow .xor`, execute stage `executeXor`. -/
def execXor (rd rs1 rs2 : Reg) (s : State) : Host.Outcome State Fault Refusal :=
  enterPipeline (.xor rd rs1 rs2) s

/-- R307 SRL: control row `ctlRow .srl`, execute stage `executeSrl`. -/
def execSrl (rd rs1 rs2 : Reg) (s : State) : Host.Outcome State Fault Refusal :=
  enterPipeline (.srl rd rs1 rs2) s

/-- R308 SRA: control row `ctlRow .sra`, execute stage `executeSra`. -/
def execSra (rd rs1 rs2 : Reg) (s : State) : Host.Outcome State Fault Refusal :=
  enterPipeline (.sra rd rs1 rs2) s

/-- R309 OR: control row `ctlRow .or`, execute stage `executeOr`. -/
def execOr (rd rs1 rs2 : Reg) (s : State) : Host.Outcome State Fault Refusal :=
  enterPipeline (.or rd rs1 rs2) s

/-- R310 AND: control row `ctlRow .and`, execute stage `executeAnd`. -/
def execAnd (rd rs1 rs2 : Reg) (s : State) : Host.Outcome State Fault Refusal :=
  enterPipeline (.and rd rs1 rs2) s

end Sys2Proof.Machine
end

