-- ==== Sys2Proof/Machine/ControlTransfer.lean ====
section
/-! DEFINITION. The meanings of the branches and jumps (45_control_transfer.md): each is the
whole cycle in which the fetch stage delivers the instruction (40_pipeline_engine.md R201; log 1). Two cycles on, execute evaluates the condition and the target; three cycles on, the memory stage redirects and the
three younger instructions are flushed (R390, R240). -/

namespace Sys2Proof.Machine

/-- R391 BEQ: control row `ctlRow .beq`, execute stage `executeBeq`. -/
def execBeq (rs1 rs2 : Reg) (off : BitVec 13) (s : State) : Host.Outcome State Fault Refusal :=
  enterPipeline (.beq rs1 rs2 off) s

/-- R392 BNE: control row `ctlRow .bne`, execute stage `executeBne`. -/
def execBne (rs1 rs2 : Reg) (off : BitVec 13) (s : State) : Host.Outcome State Fault Refusal :=
  enterPipeline (.bne rs1 rs2 off) s

/-- R393 BLT: control row `ctlRow .blt`, execute stage `executeBlt`. -/
def execBlt (rs1 rs2 : Reg) (off : BitVec 13) (s : State) : Host.Outcome State Fault Refusal :=
  enterPipeline (.blt rs1 rs2 off) s

/-- R394 BGE: control row `ctlRow .bge`, execute stage `executeBge`. -/
def execBge (rs1 rs2 : Reg) (off : BitVec 13) (s : State) : Host.Outcome State Fault Refusal :=
  enterPipeline (.bge rs1 rs2 off) s

/-- R395 BLTU: control row `ctlRow .bltu`, execute stage `executeBltu`. -/
def execBltu (rs1 rs2 : Reg) (off : BitVec 13) (s : State) : Host.Outcome State Fault Refusal :=
  enterPipeline (.bltu rs1 rs2 off) s

/-- R396 BGEU: control row `ctlRow .bgeu`, execute stage `executeBgeu`. -/
def execBgeu (rs1 rs2 : Reg) (off : BitVec 13) (s : State) : Host.Outcome State Fault Refusal :=
  enterPipeline (.bgeu rs1 rs2 off) s

/-- R400 JAL: control row `ctlRow .jal`, execute stage `executeJal`. -/
def execJal (rd : Reg) (off : BitVec 21) (s : State) : Host.Outcome State Fault Refusal :=
  enterPipeline (.jal rd off) s

/-- R401 JALR: control row `ctlRow .jalr`, execute stage `executeJalr`. -/
def execJalr (rd rs1 : Reg) (imm : BitVec 12) (s : State) : Host.Outcome State Fault Refusal :=
  enterPipeline (.jalr rd rs1 imm) s

end Sys2Proof.Machine
end

