-- ==== Sys2Proof/Machine/LoadStore.lean ====
section
/-! DEFINITION. The meanings of the loads and stores (44_load_store.md): each is the
whole cycle in which the fetch stage delivers the instruction (40_pipeline_engine.md R201; log 1). Three cycles on, the memory stage (`memoryLoad`, `memoryStore`) makes the access of the width of the control row at
the address the execute stage computed, and probes the cache (R360, R370). -/

namespace Sys2Proof.Machine

/-- R361 LB: control row `ctlRow .lb`, execute stage `executeLb`. -/
def execLb (rd rs1 : Reg) (imm : BitVec 12) (s : State) : Host.Outcome State Fault Refusal :=
  enterPipeline (.lb rd rs1 imm) s

/-- R362 LH: control row `ctlRow .lh`, execute stage `executeLh`. -/
def execLh (rd rs1 : Reg) (imm : BitVec 12) (s : State) : Host.Outcome State Fault Refusal :=
  enterPipeline (.lh rd rs1 imm) s

/-- R363 LW: control row `ctlRow .lw`, execute stage `executeLw`. -/
def execLw (rd rs1 : Reg) (imm : BitVec 12) (s : State) : Host.Outcome State Fault Refusal :=
  enterPipeline (.lw rd rs1 imm) s

/-- R364 LBU: control row `ctlRow .lbu`, execute stage `executeLbu`. -/
def execLbu (rd rs1 : Reg) (imm : BitVec 12) (s : State) : Host.Outcome State Fault Refusal :=
  enterPipeline (.lbu rd rs1 imm) s

/-- R365 LHU: control row `ctlRow .lhu`, execute stage `executeLhu`. -/
def execLhu (rd rs1 : Reg) (imm : BitVec 12) (s : State) : Host.Outcome State Fault Refusal :=
  enterPipeline (.lhu rd rs1 imm) s

/-- R371 SB: control row `ctlRow .sb`, execute stage `executeSb`. -/
def execSb (rs1 rs2 : Reg) (imm : BitVec 12) (s : State) : Host.Outcome State Fault Refusal :=
  enterPipeline (.sb rs1 rs2 imm) s

/-- R372 SH: control row `ctlRow .sh`, execute stage `executeSh`. -/
def execSh (rs1 rs2 : Reg) (imm : BitVec 12) (s : State) : Host.Outcome State Fault Refusal :=
  enterPipeline (.sh rs1 rs2 imm) s

/-- R373 SW: control row `ctlRow .sw`, execute stage `executeSw`. -/
def execSw (rs1 rs2 : Reg) (imm : BitVec 12) (s : State) : Host.Outcome State Fault Refusal :=
  enterPipeline (.sw rs1 rs2 imm) s

end Sys2Proof.Machine
end

