-- ==== Sys2Proof/Machine/MulDiv.lean ====
section
/-! DEFINITION. The meanings of the multiply and divide instructions (47_muldiv.md), present with M_EXT: each is the
whole cycle in which the fetch stage delivers the instruction (40_pipeline_engine.md R201; log 1). They behave in the pipeline as the register-register instructions do; two cycles on, the execute stage can raise
`Fatal(ARITH)` for a divide corner (R440, R449). -/

namespace Sys2Proof.Machine

/-- R441 MUL: control row `ctlRow .mul`, execute stage `executeMul`. -/
def execMul (rd rs1 rs2 : Reg) (s : State) : Host.Outcome State Fault Refusal :=
  enterPipeline (.mul rd rs1 rs2) s

/-- R442 MULH: control row `ctlRow .mulh`, execute stage `executeMulh`. -/
def execMulh (rd rs1 rs2 : Reg) (s : State) : Host.Outcome State Fault Refusal :=
  enterPipeline (.mulh rd rs1 rs2) s

/-- R443 MULHSU: control row `ctlRow .mulhsu`, execute stage `executeMulhsu`. -/
def execMulhsu (rd rs1 rs2 : Reg) (s : State) : Host.Outcome State Fault Refusal :=
  enterPipeline (.mulhsu rd rs1 rs2) s

/-- R444 MULHU: control row `ctlRow .mulhu`, execute stage `executeMulhu`. -/
def execMulhu (rd rs1 rs2 : Reg) (s : State) : Host.Outcome State Fault Refusal :=
  enterPipeline (.mulhu rd rs1 rs2) s

/-- R445 DIV: control row `ctlRow .div`, execute stage `executeDiv`. -/
def execDiv (rd rs1 rs2 : Reg) (s : State) : Host.Outcome State Fault Refusal :=
  enterPipeline (.div rd rs1 rs2) s

/-- R446 DIVU: control row `ctlRow .divu`, execute stage `executeDivu`. -/
def execDivu (rd rs1 rs2 : Reg) (s : State) : Host.Outcome State Fault Refusal :=
  enterPipeline (.divu rd rs1 rs2) s

/-- R447 REM: control row `ctlRow .rem`, execute stage `executeRem`. -/
def execRem (rd rs1 rs2 : Reg) (s : State) : Host.Outcome State Fault Refusal :=
  enterPipeline (.rem rd rs1 rs2) s

/-- R448 REMU: control row `ctlRow .remu`, execute stage `executeRemu`. -/
def execRemu (rd rs1 rs2 : Reg) (s : State) : Host.Outcome State Fault Refusal :=
  enterPipeline (.remu rd rs1 rs2) s

end Sys2Proof.Machine
end

