-- ==== Sys2Proof/Machine/System.lean ====
section
/-! DEFINITION. The meanings of the system call and of the bubble (46_system.md): each is the
whole cycle in which the fetch stage delivers the instruction (40_pipeline_engine.md R201; log 1). Four cycles on, the writeback stage makes the exit check of an ECALL (R421, R422); a bubble does nothing in any stage. -/

namespace Sys2Proof.Machine

/-- R420 ECALL: control row `ctlRow .ecall`, execute stage `executeEcall`. -/
def execEcall (s : State) : Host.Outcome State Fault Refusal :=
  enterPipeline .ecall s

/-- R425 BUBBLE: control row `ctlRow .bubble`, execute stage `executeBubble`. -/
def execBubble (s : State) : Host.Outcome State Fault Refusal :=
  enterPipeline .bubble s

end Sys2Proof.Machine
end

