-- ==== Sys2Proof/Machine/Step.lean ====
section
/-! DEFINITION. One step of the machine, one clock cycle (40_pipeline_engine.md R200), and the place of the next
instruction word. -/

namespace Sys2Proof.Machine

/-- One cycle: the fetch stage reads and decodes the word at `pc` (R210, R211), then the cycle in which it delivers that
instruction. A fetch fault is reported before any other (R205); a state that is not running is refused (R251). -/
def step (s : State) : Host.Outcome State Fault Refusal :=
  match s.status with
  | .running =>
    match fetchInstr s with
    | .error f => .fault f
    | .ok i => exec i s
  | .terminated => .refused .notRunning
  | .faulted _ => .refused .notRunning

/-- `s` with the word of the low `nbits` bits of `w` stored little-endian at `pc`, where the next cycle fetches. A word
that is an instruction only with `M_EXT` is given a machine that has the extension (DESIGN CHOICE, log 8). It stands for
the load of a program, which the launch does from outside (70_reset_and_hazards.md R705, log 4). -/
def State.withFetchWord (s : State) (nbits w : Nat) : State :=
  let v : Word := BitVec.ofNat 32 (w % 2 ^ nbits)
  let needsM := match decode true v with
    | .ok i => i.mnemonic.isM
    | .error _ => false
  { s with
    mem := s.mem.writeWidth s.pc.toNat v .word
    cfg := { s.cfg with mExt := s.cfg.mExt || needsM } }

end Sys2Proof.Machine
end

