-- ==== Sys2Proof/Machine/Pseudo.lean ====
section
/-! DEFINITION. The pseudo-instructions of the assembler and their expansion into admitted instructions
(30_encoding.md R181). The machine never sees them: a program holds the words of the expansion. -/

namespace Sys2Proof

/-- The pseudo-instructions of R181 with their operands. The operand of `la` is the displacement of the symbol from the
first instruction's own address. Those of R181's last sentence (`csrr`, `fence`, `ebreak`, floating point) are absent:
`decode` refuses their words (R160). -/
inductive Pseudo where
  | nop
  | mv (rd rs : Reg)
  | li (rd : Reg) (imm : Word)
  | la (rd : Reg) (disp : Word)
  | not (rd rs : Reg)
  | neg (rd rs : Reg)
  | seqz (rd rs : Reg)
  | snez (rd rs : Reg)
  | sltz (rd rs : Reg)
  | sgtz (rd rs : Reg)
  | beqz (rs : Reg) (off : BitVec 13)
  | bnez (rs : Reg) (off : BitVec 13)
  | blez (rs : Reg) (off : BitVec 13)
  | bgez (rs : Reg) (off : BitVec 13)
  | bltz (rs : Reg) (off : BitVec 13)
  | bgtz (rs : Reg) (off : BitVec 13)
  | bgt (rs rt : Reg) (off : BitVec 13)
  | ble (rs rt : Reg) (off : BitVec 13)
  | bgtu (rs rt : Reg) (off : BitVec 13)
  | bleu (rs rt : Reg) (off : BitVec 13)
  | j (off : BitVec 21)
  | jal (off : BitVec 21)
  | jr (rs : Reg)
  | jalr (rs : Reg)
  | ret
  | call (off : BitVec 21)
  deriving DecidableEq, Repr

/-- `lo12` of R181: the low 12 bits, which ADDI sign-extends. -/
def splitLow (imm : Word) : BitVec 12 := imm.extractLsb' 0 12

/-- `hi20` of R181: the upper 20 bits of what is left when the sign-extended low part is taken away. -/
def splitHigh (imm : Word) : BitVec 20 := (imm - (splitLow imm).signExtend 32).extractLsb' 12 20

/-- An immediate that one ADDI can hold: -2048 to 2047. -/
def fitsAddi (imm : Word) : Bool := decide (-2048 ≤ imm.toInt) && decide (imm.toInt ≤ 2047)

/-- The expansion (R181). -/
def Pseudo.expand : Pseudo → List Instr
  | .nop => [.addi 0#5 0#5 0#12]
  | .mv rd rs => [.addi rd rs 0#12]
  | .li rd imm =>
    if fitsAddi imm then [.addi rd 0#5 (splitLow imm)] else [.lui rd (splitHigh imm), .addi rd rd (splitLow imm)]
  | .la rd disp => [.auipc rd (splitHigh disp), .addi rd rd (splitLow disp)]
  | .not rd rs => [.xori rd rs 0xFFF#12]
  | .neg rd rs => [.sub rd 0#5 rs]
  | .seqz rd rs => [.sltiu rd rs 1#12]
  | .snez rd rs => [.sltu rd 0#5 rs]
  | .sltz rd rs => [.slt rd rs 0#5]
  | .sgtz rd rs => [.slt rd 0#5 rs]
  | .beqz rs off => [.beq rs 0#5 off]
  | .bnez rs off => [.bne rs 0#5 off]
  | .blez rs off => [.bge 0#5 rs off]
  | .bgez rs off => [.bge rs 0#5 off]
  | .bltz rs off => [.blt rs 0#5 off]
  | .bgtz rs off => [.blt 0#5 rs off]
  | .bgt rs rt off => [.blt rt rs off]
  | .ble rs rt off => [.bge rt rs off]
  | .bgtu rs rt off => [.bltu rt rs off]
  | .bleu rs rt off => [.bgeu rt rs off]
  | .j off => [.jal 0#5 off]
  | .jal off => [.jal 1#5 off]
  | .jr rs => [.jalr 0#5 rs 0#12]
  | .jalr rs => [.jalr 1#5 rs 0#12]
  | .ret => [.jalr 0#5 1#5 0#12]
  | .call off => [.jal 1#5 off]

end Sys2Proof
end

