-- ==== Sys2Proof/Machine/HostInterface.lean ====
section
/-! DEFINITION. What the host can do besides `step` (10_state.md R50 to R52; 40_pipeline_engine.md R200, R222, R250;
48_cache_engine.md R487; 70_reset_and_hazards.md R700): create an instance, call a cycle and read its whole report, and
probe the cache between cycles. -/

namespace Sys2Proof.Machine

/-! ## Creating an instance (R700) -/

/-- The image in canonical form: later cells over earlier ones, zeros unlisted. -/
def imageOf (cells : List Host.Cell) : Memory := cells.foldl (fun m c => Memory.put m c.1 c.2) []

/-- `Reset(config, INIT_MEM, INIT_REGS, RESET_PC)` (R700): refused outside the ranges of R11 and R471, or when the image
names a byte that memory does not have (log 11). A start address that is no multiple of 4 is not refused: cycle 1
faults (R705, log 10). -/
def launch (c : Config) (image : List Host.Cell) (regs : RegFile) (startPc : Word) :
    Host.Outcome State Fault Refusal :=
  if c.valid then
    if image.all fun cell => decide (cell.1 < c.memSize) then .next (State.created c (imageOf image) regs startPc)
    else .refused .badImage
  else .refused .badConfiguration

/-! ## One call of `advance_cycle` with its report (R200, R222, R250, R610) -/

/-- What the host gets back from a cycle, with the state it can read afterwards. -/
inductive Advance where
  /-- The cycle committed: the new state, the termination flag, the memory stage's probe result. -/
  | committed (s : State) (term : Bool) (probe : Option ProbeResult)
  /-- A fatal condition: its kind and information, and the state of the previous cycle with the status set (R610). -/
  | fatal (f : Fault) (s : State)
  /-- The request was refused and the state is unchanged (R251). -/
  | refused (r : Refusal) (s : State)
  deriving DecidableEq, Repr

/-- The probe result of the memory stage in the cycle of `s` (R222, R486). -/
def cycleProbe (s : State) : Option ProbeResult :=
  match memoryStage s with
  | .ok m => m.probe
  | .error _ => none

/-- `advance_cycle` (R200). -/
def advanceCycle (s : State) : Advance :=
  match step s with
  | .next t => .committed t (decide (t.status = .terminated)) (cycleProbe s)
  | .fault f => .fatal f (s.afterFatal f)
  | .refused r => .refused r s

/-! ## Host probes (R487) -/

/-- A probe by the host between cycles, with any 32-bit address: the cache alone changes. DESIGN CHOICE (log 18): it is
allowed in every status, a terminated or faulted one included. -/
def hostProbe (s : State) (a : Word) : Except Fault (State × ProbeResult) :=
  match probe s.cfg s.cache a with
  | .error f => .error f
  | .ok (k, r) => .ok ({ s with cache := k }, r)

end Sys2Proof.Machine
end

