-- ==== Sys2Proof/Safety.lean ====
section
/-! DEFINITION. The terms of the statements: runs of several cycles, a drained pipeline with zero words ahead of it, what
one instruction leaves when it goes through such a pipeline alone, and the invariants of the machine. -/

namespace Sys2Proof.Machine

/-! ## Several cycles -/

/-- `n` cycles, stopping at the first fault or refusal (60_exceptions.md R600). -/
def stepN : Nat → State → Host.Outcome State Fault Refusal
  | 0, s => .next s
  | n + 1, s =>
    match step s with
    | .next t => stepN n t
    | .fault f => .fault f
    | .refused r => .refused r

/-! ## A pipeline with nothing in flight -/

/-- Running, and every latch holds a bubble (10_state.md R57, R60): the state after reset, and any state four bubbles
later. The fields a bubble does not use are free. -/
abbrev Drained (s : State) : Prop :=
  s.status = .running ∧ s.ifid.inst = bubbleView ∧ s.idex.inst = bubbleView ∧ s.idex.ctl = Ctl.bubble ∧
  s.exmem.ctl = Ctl.bubble ∧ s.exmem.taken = false ∧ s.memwb.ctl = Ctl.bubble

/-- The word at `a` can be fetched, and it is the zero word: a bubble (46_system.md R425). -/
abbrev ZeroWordAt (s : State) (a : Word) : Prop :=
  a.toNat % 4 = 0 ∧ a.toNat + 4 ≤ s.cfg.memSize ∧ s.mem.readWidth a.toNat .word = 0#32

/-- The word at `a` can be fetched, and it is the instruction `j`. -/
abbrev FetchesAt (s : State) (a : Word) (j : Instr) : Prop :=
  a.toNat % 4 = 0 ∧ a.toNat + 4 ≤ s.cfg.memSize ∧ decode s.cfg.mExt (s.mem.readWidth a.toNat .word) = .ok j

/-- Nothing is in flight, and the three words that follow the one at `pc` are zero words: what a taken branch at `pc`
fetches before it redirects (70_reset_and_hazards.md R712). -/
abbrev ReadyForTransfer (s : State) : Prop :=
  Drained s ∧ ZeroWordAt s (s.pc + 4#32) ∧ ZeroWordAt s (s.pc + 8#32) ∧ ZeroWordAt s (s.pc + 12#32)

/-- Nothing is in flight, and the four words that follow the one at `pc` are zero words: what the fetch stage reads
until the instruction at `pc` has been written back (40_pipeline_engine.md R252). -/
abbrev Ready (s : State) : Prop := ReadyForTransfer s ∧ ZeroWordAt s (s.pc + 16#32)

/-! ## What one instruction leaves -/

/-- `u` is `s` five cycles later but for registers, memory and cache: no stall, redirect or forward, and nothing in
flight again. -/
abbrev Retired (s u : State) : Prop :=
  u.cfg = s.cfg ∧ u.pc = s.pc + 20#32 ∧ u.ctr = { s.ctr with cycles := s.ctr.cycles + 5 } ∧ Drained u

/-- The cache after the memory stage's access at `ea` (R222): one probe with `MEM_PROBE`, else none. -/
abbrev Probed (s : State) (ea : Word) (k : CacheState) : Prop :=
  if s.cfg.memProbe then ∃ r, probe s.cfg s.cache ea = .ok (k, r) else k = s.cache

/-- The instruction `i`, alone in the pipeline, is fetched in the cycle of `s` and four cycles later it is written back:
it has written `v` to register `rd` and changed nothing else. -/
abbrev RegisterResult (s : State) (i : Instr) (rd : Reg) (v : Word) : Prop :=
  ∃ t u, exec i s = .next t ∧ stepN 4 t = .next u ∧
    u.x = s.x.write rd v ∧ u.mem = s.mem ∧ u.cache = s.cache ∧ Retired s u

/-- As `RegisterResult`, of an instruction that changes no register, no byte of memory and no cache line. -/
abbrev NoResult (s : State) (i : Instr) : Prop :=
  ∃ t u, exec i s = .next t ∧ stepN 4 t = .next u ∧
    u.x = s.x ∧ u.mem = s.mem ∧ u.cache = s.cache ∧ Retired s u

/-- As `RegisterResult`, of a load at `ea`. -/
abbrev LoadResult (s : State) (i : Instr) (rd : Reg) (ea v : Word) : Prop :=
  ∃ t u, exec i s = .next t ∧ stepN 4 t = .next u ∧
    u.x = s.x.write rd v ∧ u.mem = s.mem ∧ Probed s ea u.cache ∧ Retired s u

/-- As `RegisterResult`, of a store of the low `n` bytes of `v` at `ea`: these bytes, and no other byte and no
register. -/
abbrev StoreResult (s : State) (i : Instr) (ea : Word) (n : Nat) (v : Word) : Prop :=
  ∃ t u, exec i s = .next t ∧ stepN 4 t = .next u ∧
    u.x = s.x ∧
    (∀ k < n, u.mem.byte (ea.toNat + k) = v.extractLsb' (8 * k) 8) ∧
    (∀ a, a < ea.toNat ∨ ea.toNat + n ≤ a → u.mem.byte a = s.mem.byte a) ∧
    Probed s ea u.cache ∧ Retired s u

/-- `u` is `s` four cycles later, in which `i` redirected to `target`: the fetch address, one redirect counted, the
three younger latches flushed, and `i` in the writeback-output latch (40_pipeline_engine.md R240, R242). -/
abbrev Redirected (s u : State) (i : Instr) (target : Word) : Prop :=
  u.pc = target ∧ u.x = s.x ∧ u.mem = s.mem ∧ u.cache = s.cache ∧ u.cfg = s.cfg ∧ u.status = .running ∧
  u.ctr = { s.ctr with cycles := s.ctr.cycles + 4, branchesTaken := s.ctr.branchesTaken + 1 } ∧
  u.ifid = bubbleIfId ∧ u.idex = bubbleIdEx ∧ u.exmem = bubbleExMem ∧ u.memwb.inst = viewOf i

/-- A taken branch, alone in the pipeline: it redirects in its fourth cycle and writes nothing. -/
abbrev TakenResult (s : State) (i : Instr) (target : Word) : Prop :=
  ∃ t u, exec i s = .next t ∧ stepN 3 t = .next u ∧ Redirected s u i target ∧ u.memwb.ctl.writesRf = false

/-- A jump, alone in the pipeline, to a word that can be fetched and is `j`: it redirects in its fourth cycle, and in the
fifth its return address is written to `rd` while `j` is fetched. -/
abbrev JumpResult (s : State) (i : Instr) (rd : Reg) (target : Word) (j : Instr) : Prop :=
  ∃ t u w, exec i s = .next t ∧ stepN 3 t = .next u ∧ Redirected s u i target ∧ step u = .next w ∧
    w.x = s.x.write rd (s.pc + 4#32) ∧ w.mem = s.mem ∧ w.cache = s.cache ∧ w.cfg = s.cfg ∧ w.status = .running ∧
    w.pc = target + 4#32 ∧ w.ifid = fetchLatch target (viewOf j) ∧ w.idex.ctl = Ctl.bubble ∧
    w.exmem.ctl = Ctl.bubble ∧ w.memwb.ctl = Ctl.bubble ∧
    w.ctr = { s.ctr with cycles := s.ctr.cycles + 5, branchesTaken := s.ctr.branchesTaken + 1 }

/-- The instruction `i`, alone in the pipeline, raises `f` in the cycle `n + 1` cycles after the one that fetches it;
until then every cycle commits and registers and memory are as in `s`. -/
abbrev FaultsAfter (s : State) (i : Instr) (n : Nat) (f : Fault) : Prop :=
  ∃ t u, exec i s = .next t ∧ stepN n t = .next u ∧ u.x = s.x ∧ u.mem = s.mem ∧ u.cache = s.cache ∧ step u = .fault f

/-! ## Invariants -/

/-- An instruction view the decoder can deliver (10_state.md R56). -/
def Genuine (mExt : Bool) (v : InstructionView) : Prop := ∃ i : Instr, i.wellFormed mExt = true ∧ v = viewOf i

/-- A valid line of set `i`: its block is block-aligned and its tag and set are those of its block (10_state.md R62);
it was touched at least once and not after the set's clock (48_cache_engine.md R475). -/
abbrev LineWf (c : Config) (i clock : Nat) (l : Line) : Prop :=
  l.valid = true →
    setOf c l.block = i ∧ tagOf c l.block = l.tag ∧ blockOf c l.block = l.block ∧ 1 ≤ l.count ∧ l.ts ≤ clock

/-- Set `i`: `WAYS` lines, each well formed; two valid lines have different tags (R62) and different timestamps (R481);
the valid lines come first (R477). -/
abbrev SetWf (c : Config) (i : Nat) (S : CacheSet) : Prop :=
  S.lines.length = c.ways ∧ (∀ l ∈ S.lines, LineWf c i S.clock l) ∧
  S.lines.Pairwise (fun l m => l.valid = true → m.valid = true → l.tag ≠ m.tag ∧ l.ts ≠ m.ts) ∧
  S.lines.Pairwise (fun l m => m.valid = true → l.valid = true)

/-- The cache: `2^S_BITS` sets, each well formed; every probe was counted as one hit or one miss, and every eviction as
a miss (R485). -/
abbrev CacheWf (c : Config) (k : CacheState) : Prop :=
  k.sets.length = 2 ^ c.sBits ∧ (∀ i S, k.sets[i]? = some S → SetWf c i S) ∧
  (k.sets.map fun S => S.clock).sum = k.hits + k.misses ∧ k.evictions ≤ k.misses

/-- The invariant of every cycle. It holds of the state after reset, and of states that no run reaches. -/
structure State.Inv (s : State) : Prop where
  /-- The configuration is one an instance can be created with (R11, R471). -/
  config : s.cfg.valid = true
  /-- The stored entry of x0 is zero (R41). -/
  zeroRegister : s.x[0] = 0#32
  /-- Memory has its canonical form and no byte outside it is listed (R100). -/
  memory : s.mem.wf = true ∧ s.mem.within s.cfg.memSize = true
  /-- Every latch holds a view the decoder can deliver (R60). -/
  views : Genuine s.cfg.mExt s.ifid.inst ∧ Genuine s.cfg.mExt s.idex.inst ∧ Genuine s.cfg.mExt s.exmem.inst ∧
    Genuine s.cfg.mExt s.memwb.inst
  /-- The control signals and the immediate of a latch are those of its instruction (R206, R215). -/
  control : s.idex.ctl = ctlOf s.idex.inst ∧ s.exmem.ctl = ctlOf s.exmem.inst ∧ s.memwb.ctl = ctlOf s.memwb.inst ∧
    s.idex.imm = s.idex.inst.imm
  /-- Only a branch-class instruction redirects (R219, R221). -/
  redirect : s.exmem.taken = true → s.exmem.ctl.branch = true
  /-- With `RF_WB_BEFORE_DECODE`, the values read at decode are those of the register file (R204, R216). -/
  operands : s.cfg.rfWbBeforeDecode = true →
    s.idex.v1 = s.x.read s.idex.ctl.rs1 ∧ s.idex.v2 = s.x.read s.idex.ctl.rs2
  /-- No instruction in the execute stage reads the destination of a load in the memory stage (R273). -/
  loadUse : s.exmem.ctl.memRead = true → s.exmem.ctl.rd ≠ 0#5 →
    s.idex.ctl.rs1 ≠ s.exmem.ctl.rd ∧ s.idex.ctl.rs2 ≠ s.exmem.ctl.rd
  /-- At most one stall and one redirect a cycle, and at most two forwards (R245). -/
  counters : s.ctr.stalls ≤ s.ctr.cycles ∧ s.ctr.branchesTaken ≤ s.ctr.cycles ∧
    s.ctr.fwdEx + s.ctr.fwdWb ≤ 2 * s.ctr.cycles
  /-- The cache (R62). -/
  cache : CacheWf s.cfg s.cache

/-! ## Program order -/

/-- The register file after the instruction of a writeback latch has written it (R230). -/
def MemWbLatch.retire (w : MemWbLatch) (x : RegFile) : RegFile :=
  if w.ctl.writesRf then x.write w.ctl.rd (writebackValue w) else x

end Sys2Proof.Machine
end

