-- ==== Sys2Proof/Certificates/Slice0/Obligations.lean ====
section
/-! DEFINITION. The statements for the provers. Each says which rule of spec/ it formalises. -/

section

open Sys2Proof Sys2Proof.Machine

/-! ## Encoding and decoding (30_encoding.md) -/

/-- R142, R150, R151: decoding the word of a well-formed instruction gives the instruction back, with every operand at
every value its field admits. -/
def Obligations.DecodeOfEncode : Prop :=
  ∀ (mExt : Bool) (i : Instr), i.wellFormed mExt = true → decode mExt (encode i) = .ok i

/-- R142, R151, R170: every bit of a word that decodes is in the instruction, which is well formed. -/
def Obligations.EncodeOfDecode : Prop :=
  ∀ (mExt : Bool) (w : Word) (i : Instr), decode mExt w = .ok i → encode i = w ∧ i.wellFormed mExt = true

/-- R150: the decoder admits exactly the rows of the opcode table, the rows marked M with `M_EXT` only, and no two rows
match the same word. -/
def Obligations.DecodeAdmitsExactlyTheRows : Prop :=
  (∀ (mExt : Bool) (w : Word) (k : Mnemonic),
    (∃ i, decode mExt w = .ok i ∧ i.mnemonic = k) ↔ (matchesRow k w = true ∧ (k.isM = true → mExt = true))) ∧
  (∀ (w : Word) (j k : Mnemonic), matchesRow j w = true → matchesRow k w = true → j = k)

/-- R142, R151: the view of a decoded word holds the raw fields of the word whatever its format, the format's immediate,
and the word. -/
def Obligations.ViewOfDecoded : Prop :=
  ∀ (mExt : Bool) (w : Word) (i : Instr), decode mExt w = .ok i →
    viewOf i =
      { op := i.mnemonic, fmt := i.mnemonic.fmt, rd := w.extractLsb' 7 5, rs1 := w.extractLsb' 15 5,
        rs2 := w.extractLsb' 20 5, funct3 := w.extractLsb' 12 3, funct7 := w.extractLsb' 25 7,
        imm := immOf i.mnemonic.fmt w, word := w }

/-- R170: the immediate of every format, bit by bit, with its range and its parity. -/
def Obligations.ImmediateOfEveryFormat : Prop :=
  ∀ w : Word,
    immOf .I w = (w.extractLsb' 20 12).signExtend 32 ∧ immOf .L w = (w.extractLsb' 20 12).signExtend 32 ∧
    immOf .IS w = (w.extractLsb' 20 5).zeroExtend 32 ∧
    immOf .S w = (w.extractLsb' 25 7 ++ w.extractLsb' 7 5).signExtend 32 ∧
    immOf .B w = (w.extractLsb' 31 1 ++ w.extractLsb' 7 1 ++ w.extractLsb' 25 6 ++ w.extractLsb' 8 4 ++ 0#1).signExtend 32 ∧
    immOf .U w = w.extractLsb' 12 20 ++ 0#12 ∧
    immOf .J w =
      (w.extractLsb' 31 1 ++ w.extractLsb' 12 8 ++ w.extractLsb' 20 1 ++ w.extractLsb' 21 10 ++ 0#1).signExtend 32 ∧
    immOf .R w = 0#32 ∧ immOf .SYS w = 0#32 ∧ immOf .NONE w = 0#32 ∧
    (∀ f ∈ [Format.I, Format.L, Format.S], -2048 ≤ (immOf f w).toInt ∧ (immOf f w).toInt ≤ 2047) ∧
    (immOf .IS w).toNat ≤ 31 ∧
    (-4096 ≤ (immOf .B w).toInt ∧ (immOf .B w).toInt ≤ 4094 ∧ (immOf .B w).toNat % 2 = 0) ∧
    (immOf .U w).toNat % 4096 = 0 ∧
    (-1048576 ≤ (immOf .J w).toInt ∧ (immOf .J w).toInt ≤ 1048574 ∧ (immOf .J w).toNat % 2 = 0)

/-- The example words of 42 to 47 decode to the instructions they are examples of. -/
def Obligations.ExampleWordsDecode : Prop :=
  decode false 0x002081B3#32 = .ok (.add 3#5 1#5 2#5) ∧ decode false 0x402081B3#32 = .ok (.sub 3#5 1#5 2#5) ∧
  decode false 0xFFF08193#32 = .ok (.addi 3#5 1#5 0xFFF#12) ∧ decode false 0x4040D193#32 = .ok (.srai 3#5 1#5 4#5) ∧
  decode false 0x123451B7#32 = .ok (.lui 3#5 0x12345#20) ∧ decode false 0x00209183#32 = .ok (.lh 3#5 1#5 2#12) ∧
  decode false 0x00209123#32 = .ok (.sh 1#5 2#5 2#12) ∧ decode false 0xFE209CE3#32 = .ok (.bne 1#5 2#5 0x1FF8#13) ∧
  decode false 0x020000EF#32 = .ok (.jal 1#5 0x20#21) ∧ decode false 0x004100E7#32 = .ok (.jalr 1#5 2#5 4#12) ∧
  decode false 0x00000073#32 = .ok .ecall ∧ decode false 0x00000000#32 = .ok .bubble ∧
  decode true 0x0220C1B3#32 = .ok (.div 3#5 1#5 2#5)

/-- R602, R161: a fetched word of no admitted row ends the run with `DECODE`, whatever the other stages of the cycle do
and whether or not the cycle stalls or flushes. -/
def Obligations.WordOfNoRowFaults : Prop :=
  ∀ (s : State) (w : Word), s.status = .running → s.pc.toNat % 4 = 0 → s.pc.toNat + 4 ≤ s.cfg.memSize →
    (fetchMemory s).readWidth s.pc.toNat .word = w →
    (∀ k, matchesRow k w = true → k.isM = true ∧ s.cfg.mExt = false) →
    step s = .fault (.decode s.pc w)

/-! ## The step (40_pipeline_engine.md) -/

/-- R210, R201: when the word at the program counter decodes to an instruction, the step is the meaning of that
instruction, with nothing around it: the meaning itself moves the program counter. -/
def Obligations.StepRunsTheDecodedInstruction : Prop :=
  ∀ (s : State) (i : Instr), s.status = .running → s.pc.toNat % 4 = 0 → s.pc.toNat + 4 ≤ s.cfg.memSize →
    decode s.cfg.mExt ((fetchMemory s).readWidth s.pc.toNat .word) = .ok i → step s = exec i s

/-- R251, R52: a cycle on a state that is not running is refused and the state is unchanged. -/
def Obligations.NotRunningIsRefused : Prop :=
  ∀ (s : State) (i : Instr), s.status ≠ .running →
    step s = .refused .notRunning ∧ exec i s = .refused .notRunning ∧ advanceCycle s = .refused .notRunning s

/-- R106, R107, R108: every access of 1, 2 or 4 bytes is checked for alignment, then for bounds on integers, and then
transfers all of its bytes. -/
def Obligations.AccessesAreChecked : Prop :=
  ∀ (size : Nat) (m : Memory) (kind : AccessKind) (a v : Word), ∀ n ∈ [Width.byte, .half, .word],
    (a.toNat % n.bytes ≠ 0 →
      memRead size m kind a n = .error (.misaligned kind a n.bytes) ∧
      memWrite size m a n v = .error (.misaligned .store a n.bytes)) ∧
    (a.toNat % n.bytes = 0 → size < a.toNat + n.bytes →
      memRead size m kind a n = .error (.bounds kind a n.bytes) ∧
      memWrite size m a n v = .error (.bounds .store a n.bytes)) ∧
    (a.toNat % n.bytes = 0 → a.toNat + n.bytes ≤ size →
      memRead size m kind a n = .ok (m.readWidth a.toNat n) ∧ memWrite size m a n v = .ok (m.writeWidth a.toNat v n))

/-- R210, R211, R106, R107: the fetch of every cycle faults on a program counter that is not a multiple of 4, else on
one whose word is not all in memory, whatever the other stages of the cycle do. -/
def Obligations.FetchAddressFaults : Prop :=
  ∀ s : State, s.status = .running →
    (s.pc.toNat % 4 ≠ 0 → step s = .fault (.misaligned .fetch s.pc 4)) ∧
    (s.pc.toNat % 4 = 0 → s.cfg.memSize < s.pc.toNat + 4 → step s = .fault (.bounds .fetch s.pc 4))

/-- R205, R615: one fault is reported, the first in the order fetch, execute, memory, writeback; the cycle commits when
no stage raises; a memory stage that raises leaves the fetch stage the old memory. -/
def Obligations.FirstFaultIsReported : Prop :=
  ∀ s : State, s.status = .running →
    (∀ f, fetchInstr s = .error f → step s = .fault f) ∧
    (∀ i f, fetchInstr s = .ok i → executeStage s.cfg s.idex (forward1 s).1 (forward2 s).1 = .error f →
      step s = .fault f) ∧
    (∀ i e f, fetchInstr s = .ok i → executeStage s.cfg s.idex (forward1 s).1 (forward2 s).1 = .ok e →
      memoryStage s = .error f → step s = .fault f) ∧
    (∀ i e m f, fetchInstr s = .ok i → executeStage s.cfg s.idex (forward1 s).1 (forward2 s).1 = .ok e →
      memoryStage s = .ok m → writebackStage s = .error f → step s = .fault f) ∧
    (∀ i e m r, fetchInstr s = .ok i → executeStage s.cfg s.idex (forward1 s).1 (forward2 s).1 = .ok e →
      memoryStage s = .ok m → writebackStage s = .ok r → ∃ t, step s = .next t) ∧
    (∀ f, memoryStage s = .error f → fetchMemory s = s.mem)

/-- A fatal condition commits nothing of its cycle (R610) and no further cycle runs (R251). That the state the host can
read is the one before the cycle with the status set is the model's choice (log 6): R610 allows it and lets no test depend
on more than the kind and the information. -/
def Obligations.FatalCommitsNothing : Prop :=
  ∀ (s : State) (f : Fault), step s = .fault f →
    advanceCycle s = .fatal f { s with status := .faulted f } ∧
    step { s with status := .faulted f } = .refused .notRunning

/-- R201, R245, R240: every admitted instruction that the fetch stage delivers to a running machine lets the cycle commit
when no later stage of the cycle raises, and then every part of the state is given: without a redirect and a stall the
instruction enters IFID with its address; a stall holds IFID and a redirect flushes it. That a fetched bubble enters with
its own address too is the model's choice (log 16). -/
def Obligations.EveryInstructionEntersThePipeline : Prop :=
  ∀ (i : Instr) (s : State) (e : ExMemLatch) (m : MemOut) (x : RegFile) (term : Bool),
    s.status = .running → i.admitted s.cfg.mExt = true →
    executeStage s.cfg s.idex (forward1 s).1 (forward2 s).1 = .ok e → memoryStage s = .ok m →
    writebackStage s = .ok (x, term) →
    ∃ t, exec i s = .next t ∧ t.cfg = s.cfg ∧ t.x = x ∧ t.mem = m.mem ∧ t.cache = m.cache ∧ t.memwb = m.latch ∧
      t.status = (if term then .terminated else .running) ∧
      t.pc = (if s.exmem.taken then s.exmem.target else if hazardDetect s then s.pc else s.pc + 4#32) ∧
      t.ifid =
        (if s.exmem.taken then bubbleIfId else if hazardDetect s then s.ifid
         else { inst := viewOf i, pc := s.pc, pc4 := s.pc + 4#32 }) ∧
      t.idex =
        (if s.exmem.taken || hazardDetect s then bubbleIdEx
         else
          { inst := s.ifid.inst, pc := s.ifid.pc, pc4 := s.ifid.pc4, ctl := ctlOf s.ifid.inst, imm := s.ifid.inst.imm,
            v1 := (if s.cfg.rfWbBeforeDecode then x else s.x).read (ctlOf s.ifid.inst).rs1,
            v2 := (if s.cfg.rfWbBeforeDecode then x else s.x).read (ctlOf s.ifid.inst).rs2 }) ∧
      t.exmem = (if s.exmem.taken then bubbleExMem else e) ∧
      t.ctr =
        { cycles := s.ctr.cycles + 1
          stalls := s.ctr.stalls + (if hazardDetect s then 1 else 0)
          branchesTaken := s.ctr.branchesTaken + (if s.exmem.taken then 1 else 0)
          fwdEx := s.ctr.fwdEx + (if (forward1 s).2 = .ex then 1 else 0) + (if (forward2 s).2 = .ex then 1 else 0)
          fwdWb := s.ctr.fwdWb + (if (forward1 s).2 = .wb then 1 else 0) + (if (forward2 s).2 = .wb then 1 else 0) }

/-- R240, with the latches of R210, R215, R204 and R219: the epilogue. A redirect flushes the three younger latches;
else the executed instruction moves on, and a stall holds the program counter and IFID and bubbles IDEX. What the memory
stage hands to MEMWB is never overridden. That the address fields of a fetched bubble are its own, as R210 writes them, and
not 0 is the model's choice (log 16). -/
def Obligations.EpilogueOfTheCycle : Prop :=
  ∀ (i : Instr) (s t : State), exec i s = .next t →
    (∃ m, memoryStage s = .ok m ∧ t.memwb = m.latch) ∧
    if s.exmem.taken = true then
      t.pc = s.exmem.target ∧ t.ifid = bubbleIfId ∧ t.idex = bubbleIdEx ∧ t.exmem = bubbleExMem
    else
      executeStage s.cfg s.idex (forward1 s).1 (forward2 s).1 = .ok t.exmem ∧
      if hazardDetect s = true then t.pc = s.pc ∧ t.ifid = s.ifid ∧ t.idex = bubbleIdEx
      else
        t.pc = s.pc + 4#32 ∧ t.ifid = { inst := viewOf i, pc := s.pc, pc4 := s.pc + 4#32 } ∧
        t.idex =
          { inst := s.ifid.inst, pc := s.ifid.pc, pc4 := s.ifid.pc4, ctl := ctlOf s.ifid.inst, imm := s.ifid.inst.imm,
            v1 := (if s.cfg.rfWbBeforeDecode = true then t.x else s.x).read (ctlOf s.ifid.inst).rs1,
            v2 := (if s.cfg.rfWbBeforeDecode = true then t.x else s.x).read (ctlOf s.ifid.inst).rs2 }

/-- R245, R241: the counters of a cycle that commits; a stall and the forwards count even when a redirect flushes them.
The configuration never changes (R40). -/
def Obligations.CountersOfTheCycle : Prop :=
  ∀ (i : Instr) (s t : State), exec i s = .next t →
    t.ctr.cycles = s.ctr.cycles + 1 ∧
    t.ctr.stalls = s.ctr.stalls + (if hazardDetect s = true then 1 else 0) ∧
    t.ctr.branchesTaken = s.ctr.branchesTaken + (if s.exmem.taken = true then 1 else 0) ∧
    t.ctr.fwdEx = s.ctr.fwdEx + (if (forward1 s).2 = .ex then 1 else 0) + (if (forward2 s).2 = .ex then 1 else 0) ∧
    t.ctr.fwdWb = s.ctr.fwdWb + (if (forward1 s).2 = .wb then 1 else 0) + (if (forward2 s).2 = .wb then 1 else 0) ∧
    t.cfg = s.cfg

/-- R230: the writeback stage of a cycle writes the destination of the instruction in MEMWB, never x0, and no other
register; a system call ends the run with its exit value, and is fatal with any other (R421, R422). -/
def Obligations.WritebackOfTheCycle : Prop :=
  (∀ (i : Instr) (s t : State), exec i s = .next t →
    (∀ r, t.x.read r =
      if s.memwb.ctl.writesRf = true ∧ s.memwb.ctl.rd ≠ 0#5 ∧ r = s.memwb.ctl.rd then
        (if s.memwb.ctl.memRead = true then s.memwb.md else s.memwb.alu)
      else s.x.read r) ∧
    t.status = (if s.memwb.ctl.syscall = true then .terminated else .running) ∧
    (s.memwb.ctl.syscall = true → t.x.read s.cfg.exitArgReg = s.cfg.exitCode)) ∧
  (∀ (i : Instr) (s : State) (e : ExMemLatch) (m : MemOut), s.status = .running → i.admitted s.cfg.mExt = true →
    executeStage s.cfg s.idex (forward1 s).1 (forward2 s).1 = .ok e → memoryStage s = .ok m →
    s.memwb.ctl.syscall = true → (s.memwb.retire s.x).read s.cfg.exitArgReg ≠ s.cfg.exitCode →
    exec i s = .fault (.syscall s.memwb.pc ((s.memwb.retire s.x).read s.cfg.exitArgReg)))

/-- R220: the memory stage of a cycle makes the load or the store of the instruction in EXMEM, and no other byte of
memory changes. -/
def Obligations.MemoryStageOfTheCycle : Prop :=
  ∀ (i : Instr) (s t : State), exec i s = .next t →
    (t.memwb.inst = s.exmem.inst ∧ t.memwb.pc = s.exmem.pc ∧ t.memwb.ctl = s.exmem.ctl ∧ t.memwb.alu = s.exmem.alu) ∧
    (s.exmem.ctl.memRead = true →
      t.mem = s.mem ∧
      (s.exmem.ctl.width = .byte →
        t.memwb.md =
          (if s.exmem.ctl.loadSigned = true then (s.mem.byte s.exmem.alu.toNat).signExtend 32
           else (s.mem.byte s.exmem.alu.toNat).zeroExtend 32)) ∧
      (s.exmem.ctl.width = .half →
        t.memwb.md =
          (if s.exmem.ctl.loadSigned = true then
             (s.mem.byte (s.exmem.alu.toNat + 1) ++ s.mem.byte s.exmem.alu.toNat).signExtend 32
           else (s.mem.byte (s.exmem.alu.toNat + 1) ++ s.mem.byte s.exmem.alu.toNat).zeroExtend 32)) ∧
      (s.exmem.ctl.width = .word →
        t.memwb.md =
          s.mem.byte (s.exmem.alu.toNat + 3) ++ s.mem.byte (s.exmem.alu.toNat + 2) ++
            s.mem.byte (s.exmem.alu.toNat + 1) ++ s.mem.byte s.exmem.alu.toNat)) ∧
    (s.exmem.ctl.memRead = false → s.exmem.ctl.memWrite = true → s.mem.wf = true →
      t.memwb.md = 0#32 ∧
      (∀ k < s.exmem.ctl.width.bytes,
        t.mem.byte (s.exmem.alu.toNat + k) = s.exmem.sv.extractLsb' (8 * k) 8) ∧
      (∀ a, a < s.exmem.alu.toNat ∨ s.exmem.alu.toNat + s.exmem.ctl.width.bytes ≤ a → t.mem.byte a = s.mem.byte a)) ∧
    (s.exmem.ctl.memRead = false → s.exmem.ctl.memWrite = false → t.memwb.md = 0#32 ∧ t.mem = s.mem)

/-- R119, R222: the memory stage probes the cache once for a load or a store when `MEM_PROBE` is true, at the effective
address, and reports the result; a cycle without one, or with `MEM_PROBE` false, leaves the cache alone. -/
def Obligations.ProbesOfTheCycle : Prop :=
  ∀ (i : Instr) (s t : State), exec i s = .next t →
    (s.cfg.memProbe = true → s.exmem.ctl.memRead = true ∨ s.exmem.ctl.memWrite = true →
      ∃ r, probe s.cfg s.cache s.exmem.alu = .ok (t.cache, r) ∧ cycleProbe s = some r) ∧
    (s.cfg.memProbe = false ∨ (s.exmem.ctl.memRead = false ∧ s.exmem.ctl.memWrite = false) →
      t.cache = s.cache ∧ cycleProbe s = none)

/-- R206: the control signals of every instruction of the opcode table; the number of an absent operand is 0. -/
def Obligations.ControlSignalsOfEveryInstruction : Prop :=
  ∀ (rd rs1 rs2 : Reg) (imm : BitVec 12) (shamt : BitVec 5) (imm20 : BitVec 20) (off : BitVec 13) (joff : BitVec 21),
    (∀ i ∈ [Instr.add rd rs1 rs2, .sub rd rs1 rs2, .sll rd rs1 rs2, .slt rd rs1 rs2, .sltu rd rs1 rs2,
        .xor rd rs1 rs2, .srl rd rs1 rs2, .sra rd rs1 rs2, .or rd rs1 rs2, .and rd rs1 rs2, .mul rd rs1 rs2,
        .mulh rd rs1 rs2, .mulhsu rd rs1 rs2, .mulhu rd rs1 rs2, .div rd rs1 rs2, .divu rd rs1 rs2, .rem rd rs1 rs2,
        .remu rd rs1 rs2],
      ctlOf (viewOf i) =
        { Ctl.bubble with
          uses1 := true, uses2 := true, readsRf := true, writesRf := true, rs1 := rs1, rs2 := rs2, rd := rd }) ∧
    (∀ i ∈ [Instr.addi rd rs1 imm, .slti rd rs1 imm, .sltiu rd rs1 imm, .xori rd rs1 imm, .ori rd rs1 imm,
        .andi rd rs1 imm, .slli rd rs1 shamt, .srli rd rs1 shamt, .srai rd rs1 shamt],
      ctlOf (viewOf i) =
        { Ctl.bubble with uses1 := true, readsRf := true, writesRf := true, immOp2 := true, rs1 := rs1, rd := rd }) ∧
    (∀ i ∈ [Instr.lui rd imm20, .auipc rd imm20],
      ctlOf (viewOf i) = { Ctl.bubble with writesRf := true, immOp2 := true, rd := rd }) ∧
    (∀ p ∈ [(Instr.lb rd rs1 imm, Width.byte, true), (.lh rd rs1 imm, .half, true), (.lw rd rs1 imm, .word, false),
        (.lbu rd rs1 imm, .byte, false), (.lhu rd rs1 imm, .half, false)],
      ctlOf (viewOf p.1) =
        { Ctl.bubble with
          uses1 := true, readsRf := true, writesRf := true, memRead := true, immOp2 := true, rs1 := rs1, rd := rd,
          width := p.2.1, loadSigned := p.2.2 }) ∧
    (∀ p ∈ [(Instr.sb rs1 rs2 imm, Width.byte), (.sh rs1 rs2 imm, .half), (.sw rs1 rs2 imm, .word)],
      ctlOf (viewOf p.1) =
        { Ctl.bubble with
          uses1 := true, uses2 := true, readsRf := true, memWrite := true, immOp2 := true, rs1 := rs1, rs2 := rs2,
          width := p.2 }) ∧
    (∀ i ∈ [Instr.beq rs1 rs2 off, .bne rs1 rs2 off, .blt rs1 rs2 off, .bge rs1 rs2 off, .bltu rs1 rs2 off,
        .bgeu rs1 rs2 off],
      ctlOf (viewOf i) =
        { Ctl.bubble with uses1 := true, uses2 := true, readsRf := true, branch := true, rs1 := rs1, rs2 := rs2 }) ∧
    ctlOf (viewOf (.jal rd joff)) = { Ctl.bubble with writesRf := true, branch := true, rd := rd } ∧
    ctlOf (viewOf (.jalr rd rs1 imm)) =
      { Ctl.bubble with
        uses1 := true, readsRf := true, writesRf := true, branch := true, immOp2 := true, rs1 := rs1, rd := rd } ∧
    ctlOf (viewOf .ecall) = { Ctl.bubble with syscall := true } ∧
    ctlOf (viewOf .bubble) = Ctl.bubble

/-! ## The execute stage of every instruction, in any pipeline (R219) -/

/-- R219 with R301 to R310, R331 to R341, R311: the result of every register-register, register-immediate and
upper-immediate instruction in the execute stage, of any operand values `a` and `b`, decoded at any address from any
register file. None redirects. -/
def Obligations.ExecuteStageOfArithmetic : Prop :=
  ∀ (c : Config) (pc : Word) (x : RegFile) (a b : Word) (rd rs1 rs2 : Reg) (imm : BitVec 12) (shamt : BitVec 5)
    (imm20 : BitVec 20),
    ∀ p ∈ [(Instr.add rd rs1 rs2, a + b), (.sub rd rs1 rs2, a - b), (.sll rd rs1 rs2, a <<< (b.toNat % 32)),
        (.slt rd rs1 rs2, if a.toInt < b.toInt then 1#32 else 0#32),
        (.sltu rd rs1 rs2, if a.toNat < b.toNat then 1#32 else 0#32), (.xor rd rs1 rs2, a ^^^ b),
        (.srl rd rs1 rs2, a >>> (b.toNat % 32)), (.sra rd rs1 rs2, a.sshiftRight (b.toNat % 32)),
        (.or rd rs1 rs2, a ||| b), (.and rd rs1 rs2, a &&& b),
        (.addi rd rs1 imm, a + imm.signExtend 32),
        (.slti rd rs1 imm, if a.toInt < (imm.signExtend 32).toInt then 1#32 else 0#32),
        (.sltiu rd rs1 imm, if a.toNat < (imm.signExtend 32).toNat then 1#32 else 0#32),
        (.xori rd rs1 imm, a ^^^ imm.signExtend 32), (.ori rd rs1 imm, a ||| imm.signExtend 32),
        (.andi rd rs1 imm, a &&& imm.signExtend 32),
        (.slli rd rs1 shamt, a <<< shamt.toNat), (.srli rd rs1 shamt, a >>> shamt.toNat),
        (.srai rd rs1 shamt, a.sshiftRight shamt.toNat),
        (.lui rd imm20, imm20 ++ 0#12), (.auipc rd imm20, pc + (imm20 ++ 0#12))],
      executeStage c (decodeStage (fetchLatch pc (viewOf p.1)) x) a b =
        .ok { inst := viewOf p.1, pc := pc, ctl := ctlOf (viewOf p.1), alu := p.2, sv := b, taken := false,
              target := 0#32 }

/-- R219 with R360, R370, R375, R390 to R396, R400, R401, R420, R425: the effective address of every load and store, the
condition and the target of every branch, the return address and the target of every jump, and nothing for ECALL and the
bubble, in the execute stage, of any operand values. Branch and jump offsets are even, as every encoded one is. That a
fetched bubble keeps its own address is the model's choice (log 16). -/
def Obligations.ExecuteStageOfTheOthers : Prop :=
  ∀ (c : Config) (pc : Word) (x : RegFile) (a b : Word) (rd rs1 rs2 : Reg) (imm : BitVec 12) (off : BitVec 13)
    (joff : BitVec 21), off.getLsbD 0 = false → joff.getLsbD 0 = false →
    ∀ p ∈ [(Instr.lb rd rs1 imm, a + imm.signExtend 32, false, 0#32), (.lh rd rs1 imm, a + imm.signExtend 32, false, 0#32),
        (.lw rd rs1 imm, a + imm.signExtend 32, false, 0#32), (.lbu rd rs1 imm, a + imm.signExtend 32, false, 0#32),
        (.lhu rd rs1 imm, a + imm.signExtend 32, false, 0#32), (.sb rs1 rs2 imm, a + imm.signExtend 32, false, 0#32),
        (.sh rs1 rs2 imm, a + imm.signExtend 32, false, 0#32), (.sw rs1 rs2 imm, a + imm.signExtend 32, false, 0#32),
        (.beq rs1 rs2 off, 0#32, decide (a = b), pc + off.signExtend 32),
        (.bne rs1 rs2 off, 0#32, decide (a ≠ b), pc + off.signExtend 32),
        (.blt rs1 rs2 off, 0#32, decide (a.toInt < b.toInt), pc + off.signExtend 32),
        (.bge rs1 rs2 off, 0#32, decide (b.toInt ≤ a.toInt), pc + off.signExtend 32),
        (.bltu rs1 rs2 off, 0#32, decide (a.toNat < b.toNat), pc + off.signExtend 32),
        (.bgeu rs1 rs2 off, 0#32, decide (b.toNat ≤ a.toNat), pc + off.signExtend 32),
        (.jal rd joff, pc + 4#32, true, pc + joff.signExtend 32),
        (.jalr rd rs1 imm, pc + 4#32, true, a + imm.signExtend 32),
        (.ecall, 0#32, false, 0#32), (.bubble, 0#32, false, 0#32)],
      executeStage c (decodeStage (fetchLatch pc (viewOf p.1)) x) a b =
        .ok { inst := viewOf p.1, pc := pc, ctl := ctlOf (viewOf p.1), alu := p.2.1, sv := b, taken := p.2.2.1,
              target := p.2.2.2 }

/-- R441 to R449: the result of every multiply and divide in the execute stage, of any operand values: the products, the
quotients and remainders outside the corner cases, and the corner cases under both values of `DIV_CORNER`. -/
def Obligations.ExecuteStageOfMultiplyAndDivide : Prop :=
  ∀ (c : Config) (pc : Word) (x : RegFile) (a b : Word) (rd rs1 rs2 : Reg), c.mExt = true →
    (∀ p ∈ [(Instr.mul rd rs1 rs2, BitVec.ofNat 32 (a.toNat * b.toNat)),
        (.mulh rd rs1 rs2, BitVec.ofInt 32 ((a.toInt * b.toInt) >>> (32 : Nat))),
        (.mulhsu rd rs1 rs2, BitVec.ofInt 32 ((a.toInt * (b.toNat : Int)) >>> (32 : Nat))),
        (.mulhu rd rs1 rs2, BitVec.ofNat 32 ((a.toNat * b.toNat) >>> 32))],
      executeStage c (decodeStage (fetchLatch pc (viewOf p.1)) x) a b =
        .ok { inst := viewOf p.1, pc := pc, ctl := ctlOf (viewOf p.1), alu := p.2, sv := b, taken := false,
              target := 0#32 }) ∧
    (b ≠ 0#32 →
      ∀ p ∈ [(Instr.divu rd rs1 rs2, BitVec.ofNat 32 (a.toNat / b.toNat)),
          (.remu rd rs1 rs2, BitVec.ofNat 32 (a.toNat % b.toNat))],
        executeStage c (decodeStage (fetchLatch pc (viewOf p.1)) x) a b =
          .ok { inst := viewOf p.1, pc := pc, ctl := ctlOf (viewOf p.1), alu := p.2, sv := b, taken := false,
                target := 0#32 }) ∧
    (b ≠ 0#32 → ¬(a = 0x80000000#32 ∧ b = 0xFFFFFFFF#32) →
      ∀ p ∈ [(Instr.div rd rs1 rs2, BitVec.ofInt 32 (a.toInt.tdiv b.toInt)),
          (.rem rd rs1 rs2, BitVec.ofInt 32 (a.toInt - b.toInt * a.toInt.tdiv b.toInt))],
        executeStage c (decodeStage (fetchLatch pc (viewOf p.1)) x) a b =
          .ok { inst := viewOf p.1, pc := pc, ctl := ctlOf (viewOf p.1), alu := p.2, sv := b, taken := false,
                target := 0#32 }) ∧
    (c.divCorner = .riscv →
      (b = 0#32 →
        ∀ p ∈ [(Instr.div rd rs1 rs2, 0xFFFFFFFF#32), (.divu rd rs1 rs2, 0xFFFFFFFF#32), (.rem rd rs1 rs2, a),
            (.remu rd rs1 rs2, a)],
          executeStage c (decodeStage (fetchLatch pc (viewOf p.1)) x) a b =
            .ok { inst := viewOf p.1, pc := pc, ctl := ctlOf (viewOf p.1), alu := p.2, sv := b, taken := false,
                  target := 0#32 }) ∧
      (a = 0x80000000#32 → b = 0xFFFFFFFF#32 →
        ∀ p ∈ [(Instr.div rd rs1 rs2, 0x80000000#32), (.rem rd rs1 rs2, 0#32)],
          executeStage c (decodeStage (fetchLatch pc (viewOf p.1)) x) a b =
            .ok { inst := viewOf p.1, pc := pc, ctl := ctlOf (viewOf p.1), alu := p.2, sv := b, taken := false,
                  target := 0#32 })) ∧
    (c.divCorner = .fault →
      (b = 0#32 →
        ∀ i ∈ [Instr.div rd rs1 rs2, .divu rd rs1 rs2, .rem rd rs1 rs2, .remu rd rs1 rs2],
          executeStage c (decodeStage (fetchLatch pc (viewOf i)) x) a b = .error (.arith pc a b)) ∧
      (a = 0x80000000#32 → b = 0xFFFFFFFF#32 →
        ∀ i ∈ [Instr.div rd rs1 rs2, .rem rd rs1 rs2],
          executeStage c (decodeStage (fetchLatch pc (viewOf i)) x) a b = .error (.arith pc a b)))

/-! ## Hazards, forwarding and flushes (41_hazard_forwarding.md) -/

/-- R261: the stall condition. -/
def Obligations.StallCondition : Prop :=
  ∀ s : State, hazardDetect s = true ↔
    s.idex.ctl.memRead = true ∧ s.idex.ctl.writesRf = true ∧ s.idex.ctl.rd ≠ 0#5 ∧
    ((ctlOf s.ifid.inst).rs1 = s.idex.ctl.rd ∨ (ctlOf s.ifid.inst).rs2 = s.idex.ctl.rd)

/-- R263, R243: a stall holds `pc` and IFID, bubbles IDEX, lets the load go on to EXMEM and is counted; no stall follows
it in the next cycle (R264). -/
def Obligations.StallHoldsOneCycle : Prop :=
  ∀ (i : Instr) (s t : State), exec i s = .next t → hazardDetect s = true → s.exmem.taken = false →
    t.pc = s.pc ∧ t.ifid = s.ifid ∧ t.idex = bubbleIdEx ∧ t.exmem.inst = s.idex.inst ∧ t.exmem.ctl = s.idex.ctl ∧
    t.ctr.stalls = s.ctr.stalls + 1 ∧ hazardDetect t = false

/-- R264: after exactly one stall cycle the dependent instruction is in the execute stage, and the operand that is the
load's destination is the loaded value, forwarded from MEMWB, in either operand position. -/
def Obligations.LoadUseSeesTheLoadedValue : Prop :=
  ∀ (i j : Instr) (s t u : State), s.idex.ctl = ctlOf s.idex.inst → hazardDetect s = true → s.exmem.taken = false →
    exec i s = .next t → exec j t = .next u →
    u.idex.inst = s.ifid.inst ∧ u.memwb.inst = s.idex.inst ∧ u.memwb.ctl.rd = s.idex.ctl.rd ∧
    u.ctr.stalls = s.ctr.stalls + 1 ∧
    (u.idex.ctl.rs1 = s.idex.ctl.rd → forward1 u = (u.memwb.md, .wb)) ∧
    (u.idex.ctl.rs2 = s.idex.ctl.rd → forward2 u = (u.memwb.md, .wb))

/-- R271, R272, R273, R274, R275: the forwarding selection of both operands; the nearer stage wins, a load in EXMEM is no
source, and register 0 is never forwarded. -/
def Obligations.ForwardingSelection : Prop :=
  (∀ s : State, forward1 s =
    if s.exmem.ctl.writesRf = true ∧ s.exmem.ctl.rd ≠ 0#5 ∧ s.exmem.ctl.memRead = false ∧
        s.exmem.ctl.rd = s.idex.ctl.rs1 then (s.exmem.alu, .ex)
    else if s.memwb.ctl.writesRf = true ∧ s.memwb.ctl.rd ≠ 0#5 ∧ s.memwb.ctl.rd = s.idex.ctl.rs1 then
      (if s.memwb.ctl.memRead = true then s.memwb.md else s.memwb.alu, .wb)
    else (s.idex.v1, .none)) ∧
  (∀ s : State, forward2 s =
    if s.exmem.ctl.writesRf = true ∧ s.exmem.ctl.rd ≠ 0#5 ∧ s.exmem.ctl.memRead = false ∧
        s.exmem.ctl.rd = s.idex.ctl.rs2 then (s.exmem.alu, .ex)
    else if s.memwb.ctl.writesRf = true ∧ s.memwb.ctl.rd ≠ 0#5 ∧ s.memwb.ctl.rd = s.idex.ctl.rs2 then
      (if s.memwb.ctl.memRead = true then s.memwb.md else s.memwb.alu, .wb)
    else (s.idex.v2, .none)) ∧
  (∀ s : State, s.idex.ctl.rs1 = 0#5 → forward1 s = (s.idex.v1, .none)) ∧
  (∀ s : State, s.idex.ctl.rs2 = 0#5 → forward2 s = (s.idex.v2, .none))

/-- R280, R281, R231: with `RF_WB_BEFORE_DECODE`, each operand of the instruction in the execute stage is the value its
register has after the two instructions ahead of it, in MEMWB and in EXMEM, have written theirs in program order. -/
def Obligations.OperandsAreInProgramOrder : Prop :=
  ∀ (s : State) (m : MemOut), s.Inv → s.cfg.rfWbBeforeDecode = true → memoryStage s = .ok m →
    (forward1 s).1 = RegFile.read (m.latch.retire (s.memwb.retire s.x)) s.idex.ctl.rs1 ∧
    (forward2 s).1 = RegFile.read (m.latch.retire (s.memwb.retire s.x)) s.idex.ctl.rs2

/-- R242: a redirect sets the program counter to its target, and the three younger instructions never reach the memory or
the writeback stage: in the three cycles after it memory, cache and, once the redirecting instruction is written back,
registers stay as they are, and the instruction at the target follows in the pipeline. That a fetched bubble enters with its
own address too is the model's choice (log 16). -/
def Obligations.RedirectDiscardsTheThreeYounger : Prop :=
  ∀ (i j k l : Instr) (s t u v w : State), s.exmem.taken = true →
    exec i s = .next t → exec j t = .next u → exec k u = .next v → exec l v = .next w →
    t.pc = s.exmem.target ∧ u.ifid = { inst := viewOf j, pc := s.exmem.target, pc4 := s.exmem.target + 4#32 } ∧
    v.idex.inst = viewOf j ∧ w.exmem.inst = viewOf j ∧
    u.memwb.ctl = Ctl.bubble ∧ v.memwb.ctl = Ctl.bubble ∧ w.memwb.ctl = Ctl.bubble ∧
    u.mem = t.mem ∧ v.mem = t.mem ∧ w.mem = t.mem ∧ u.cache = t.cache ∧ v.cache = t.cache ∧ w.cache = t.cache ∧
    v.x = u.x ∧ w.x = u.x

/-- R203: each stage works on a different instruction, so the one that is fetched has no effect in its cycle but to
enter IFID. -/
def Obligations.FetchedInstructionOnlyEntersIfId : Prop :=
  ∀ (i j : Instr) (s t : State), exec i s = .next t → j.admitted s.cfg.mExt = true →
    ∃ u, exec j s = .next u ∧ u = { t with ifid := u.ifid }

/-- R63, R119, R376: what a program computes never depends on the cache. Two machines that differ in their cache alone
run alike for any number of cycles: they reach states that differ in the cache alone, or stop in the same way. -/
def Obligations.CacheIsNeverObserved : Prop :=
  ∀ (n : Nat) (s : State) (k : CacheState), s.cfg.valid = true → CacheWf s.cfg s.cache → CacheWf s.cfg k →
    match stepN n s with
    | .next t => ∃ k', stepN n { s with cache := k } = .next { t with cache := k' }
    | .fault f => stepN n { s with cache := k } = .fault f
    | .refused r => stepN n { s with cache := k } = .refused r

/-! ## Each instruction through the pipeline -/

/-- R301 to R310, R311: every register-register instruction, alone in the pipeline, completes: its result is written to
`rd` (to nothing when `rd` is 0) and nothing else changes. -/
def Obligations.RegisterInstructionsComplete : Prop :=
  ∀ (s : State) (rd rs1 rs2 : Reg), Ready s →
    RegisterResult s (.add rd rs1 rs2) rd (s.x.read rs1 + s.x.read rs2) ∧
    RegisterResult s (.sub rd rs1 rs2) rd (s.x.read rs1 - s.x.read rs2) ∧
    RegisterResult s (.sll rd rs1 rs2) rd (s.x.read rs1 <<< ((s.x.read rs2).toNat % 32)) ∧
    RegisterResult s (.slt rd rs1 rs2) rd (if (s.x.read rs1).toInt < (s.x.read rs2).toInt then 1#32 else 0#32) ∧
    RegisterResult s (.sltu rd rs1 rs2) rd (if (s.x.read rs1).toNat < (s.x.read rs2).toNat then 1#32 else 0#32) ∧
    RegisterResult s (.xor rd rs1 rs2) rd (s.x.read rs1 ^^^ s.x.read rs2) ∧
    RegisterResult s (.srl rd rs1 rs2) rd (s.x.read rs1 >>> ((s.x.read rs2).toNat % 32)) ∧
    RegisterResult s (.sra rd rs1 rs2) rd ((s.x.read rs1).sshiftRight ((s.x.read rs2).toNat % 32)) ∧
    RegisterResult s (.or rd rs1 rs2) rd (s.x.read rs1 ||| s.x.read rs2) ∧
    RegisterResult s (.and rd rs1 rs2) rd (s.x.read rs1 &&& s.x.read rs2)

/-- R331 to R341: every register-immediate and upper-immediate instruction, alone in the pipeline, completes: its result
is written to `rd` (to nothing when `rd` is 0) and nothing else changes. -/
def Obligations.ImmediateInstructionsComplete : Prop :=
  ∀ (s : State) (rd rs1 : Reg) (imm : BitVec 12) (shamt : BitVec 5) (imm20 : BitVec 20), Ready s →
    RegisterResult s (.addi rd rs1 imm) rd (s.x.read rs1 + imm.signExtend 32) ∧
    RegisterResult s (.slti rd rs1 imm) rd
      (if (s.x.read rs1).toInt < (imm.signExtend 32).toInt then 1#32 else 0#32) ∧
    RegisterResult s (.sltiu rd rs1 imm) rd
      (if (s.x.read rs1).toNat < (imm.signExtend 32).toNat then 1#32 else 0#32) ∧
    RegisterResult s (.xori rd rs1 imm) rd (s.x.read rs1 ^^^ imm.signExtend 32) ∧
    RegisterResult s (.ori rd rs1 imm) rd (s.x.read rs1 ||| imm.signExtend 32) ∧
    RegisterResult s (.andi rd rs1 imm) rd (s.x.read rs1 &&& imm.signExtend 32) ∧
    RegisterResult s (.slli rd rs1 shamt) rd (s.x.read rs1 <<< shamt.toNat) ∧
    RegisterResult s (.srli rd rs1 shamt) rd (s.x.read rs1 >>> shamt.toNat) ∧
    RegisterResult s (.srai rd rs1 shamt) rd ((s.x.read rs1).sshiftRight shamt.toNat) ∧
    RegisterResult s (.lui rd imm20) rd (imm20 ++ 0#12) ∧
    RegisterResult s (.auipc rd imm20) rd (s.pc + (imm20 ++ 0#12))

/-- R361 to R365, R360: every load, alone in the pipeline, of an aligned address in memory completes: the bytes at the
effective address, lowest first, extended, are written to `rd` (to nothing when `rd` is 0), and no byte of memory
changes. -/
def Obligations.LoadsComplete : Prop :=
  ∀ (s : State) (rd rs1 : Reg) (imm : BitVec 12) (ea : Word), Ready s → s.cfg.valid = true → CacheWf s.cfg s.cache →
    ea = s.x.read rs1 + imm.signExtend 32 →
    (ea.toNat + 1 ≤ s.cfg.memSize →
      LoadResult s (.lb rd rs1 imm) rd ea ((s.mem.byte ea.toNat).signExtend 32) ∧
      LoadResult s (.lbu rd rs1 imm) rd ea ((s.mem.byte ea.toNat).zeroExtend 32)) ∧
    (ea.toNat % 2 = 0 → ea.toNat + 2 ≤ s.cfg.memSize →
      LoadResult s (.lh rd rs1 imm) rd ea ((s.mem.byte (ea.toNat + 1) ++ s.mem.byte ea.toNat).signExtend 32) ∧
      LoadResult s (.lhu rd rs1 imm) rd ea ((s.mem.byte (ea.toNat + 1) ++ s.mem.byte ea.toNat).zeroExtend 32)) ∧
    (ea.toNat % 4 = 0 → ea.toNat + 4 ≤ s.cfg.memSize →
      LoadResult s (.lw rd rs1 imm) rd ea
        (s.mem.byte (ea.toNat + 3) ++ s.mem.byte (ea.toNat + 2) ++ s.mem.byte (ea.toNat + 1) ++ s.mem.byte ea.toNat))

/-- R371 to R373, R370: every store, alone in the pipeline, to an aligned address in memory completes: the low bytes of
`rs2` are stored at the effective address, lowest first, and no other byte of memory and no register changes. The stored
bytes are not in the two words that are fetched while the store is in the memory and the writeback stage. -/
def Obligations.StoresComplete : Prop :=
  ∀ (s : State) (rs1 rs2 : Reg) (imm : BitVec 12) (ea : Word), Ready s → s.cfg.valid = true → CacheWf s.cfg s.cache →
    s.mem.wf = true → ea = s.x.read rs1 + imm.signExtend 32 →
    ∀ p ∈ [(Instr.sb rs1 rs2 imm, 1), (.sh rs1 rs2 imm, 2), (.sw rs1 rs2 imm, 4)],
      ea.toNat % p.2 = 0 → ea.toNat + p.2 ≤ s.cfg.memSize →
      (ea.toNat + p.2 ≤ (s.pc + 12#32).toNat ∨ (s.pc + 12#32).toNat + 4 ≤ ea.toNat) →
      (ea.toNat + p.2 ≤ (s.pc + 16#32).toNat ∨ (s.pc + 16#32).toNat + 4 ≤ ea.toNat) →
      StoreResult s p.1 ea p.2 (s.x.read rs2)

/-- R361 to R365, R371 to R373, R108: a load or store of a misaligned address, else of one whose bytes are not all in
memory, is fatal in its memory stage, with its kind, address and width, and nothing is loaded or stored. -/
def Obligations.LoadsAndStoresFault : Prop :=
  ∀ (s : State) (rd rs1 rs2 : Reg) (imm : BitVec 12) (ea : Word), ReadyForTransfer s →
    ea = s.x.read rs1 + imm.signExtend 32 →
    ∀ p ∈ [(Instr.lb rd rs1 imm, AccessKind.load, 1), (.lbu rd rs1 imm, .load, 1), (.lh rd rs1 imm, .load, 2),
        (.lhu rd rs1 imm, .load, 2), (.lw rd rs1 imm, .load, 4), (.sb rs1 rs2 imm, .store, 1),
        (.sh rs1 rs2 imm, .store, 2), (.sw rs1 rs2 imm, .store, 4)],
      (ea.toNat % p.2.2 ≠ 0 → FaultsAfter s p.1 2 (.misaligned p.2.1 ea p.2.2)) ∧
      (ea.toNat % p.2.2 = 0 → s.cfg.memSize < ea.toNat + p.2.2 → FaultsAfter s p.1 2 (.bounds p.2.1 ea p.2.2))

/-- R391 to R396, R390: a branch whose condition holds, alone in the pipeline, completes by redirecting to its own
address plus its offset; it writes no register and no memory. -/
def Obligations.TakenBranchesComplete : Prop :=
  ∀ (s : State) (rs1 rs2 : Reg) (off : BitVec 13), ReadyForTransfer s → off.getLsbD 0 = false →
    (s.x.read rs1 = s.x.read rs2 → TakenResult s (.beq rs1 rs2 off) (s.pc + off.signExtend 32)) ∧
    (s.x.read rs1 ≠ s.x.read rs2 → TakenResult s (.bne rs1 rs2 off) (s.pc + off.signExtend 32)) ∧
    ((s.x.read rs1).toInt < (s.x.read rs2).toInt → TakenResult s (.blt rs1 rs2 off) (s.pc + off.signExtend 32)) ∧
    ((s.x.read rs2).toInt ≤ (s.x.read rs1).toInt → TakenResult s (.bge rs1 rs2 off) (s.pc + off.signExtend 32)) ∧
    ((s.x.read rs1).toNat < (s.x.read rs2).toNat → TakenResult s (.bltu rs1 rs2 off) (s.pc + off.signExtend 32)) ∧
    ((s.x.read rs2).toNat ≤ (s.x.read rs1).toNat → TakenResult s (.bgeu rs1 rs2 off) (s.pc + off.signExtend 32))

/-- R391 to R396, R390: a branch whose condition does not hold, alone in the pipeline, completes and changes nothing. -/
def Obligations.UntakenBranchesComplete : Prop :=
  ∀ (s : State) (rs1 rs2 : Reg) (off : BitVec 13), Ready s → off.getLsbD 0 = false →
    (s.x.read rs1 ≠ s.x.read rs2 → NoResult s (.beq rs1 rs2 off)) ∧
    (s.x.read rs1 = s.x.read rs2 → NoResult s (.bne rs1 rs2 off)) ∧
    ((s.x.read rs2).toInt ≤ (s.x.read rs1).toInt → NoResult s (.blt rs1 rs2 off)) ∧
    ((s.x.read rs1).toInt < (s.x.read rs2).toInt → NoResult s (.bge rs1 rs2 off)) ∧
    ((s.x.read rs2).toNat ≤ (s.x.read rs1).toNat → NoResult s (.bltu rs1 rs2 off)) ∧
    ((s.x.read rs1).toNat < (s.x.read rs2).toNat → NoResult s (.bgeu rs1 rs2 off))

/-- R400: JAL, alone in the pipeline, completes: it redirects to its own address plus its offset and writes the address
after it to `rd` (to nothing when `rd` is 0); no byte of memory changes. That the instruction at the target enters with its
own address when it is a bubble too is the model's choice (log 16). -/
def Obligations.JalCompletes : Prop :=
  ∀ (s : State) (rd : Reg) (off : BitVec 21) (j : Instr), ReadyForTransfer s → off.getLsbD 0 = false →
    FetchesAt s (s.pc + off.signExtend 32) j → JumpResult s (.jal rd off) rd (s.pc + off.signExtend 32) j

/-- R401: JALR, alone in the pipeline, completes: it redirects to base plus offset, bit 0 not cleared, and writes the
address after it to `rd` (to nothing when `rd` is 0); the base is the value from before the write. That the instruction at the target
enters with its own address when it is a bubble too is the model's choice (log 16). -/
def Obligations.JalrCompletes : Prop :=
  ∀ (s : State) (rd rs1 : Reg) (imm : BitVec 12) (j : Instr), ReadyForTransfer s →
    FetchesAt s (s.x.read rs1 + imm.signExtend 32) j →
    JumpResult s (.jalr rd rs1 imm) rd (s.x.read rs1 + imm.signExtend 32) j

/-- R405: a branch or jump does not check its target; the fetch of the next cycle faults, by alignment and then by
bounds, and the link write that was due in that cycle is not committed. -/
def Obligations.BadTargetsFaultAtTheirFetch : Prop :=
  ∀ (s : State) (rd rs1 rs2 : Reg) (imm : BitVec 12) (off : BitVec 13) (joff : BitVec 21), ReadyForTransfer s →
    off.getLsbD 0 = false → joff.getLsbD 0 = false →
    ∀ p ∈ [(Instr.jal rd joff, s.pc + joff.signExtend 32, true),
        (.jalr rd rs1 imm, s.x.read rs1 + imm.signExtend 32, true),
        (.beq rs1 rs2 off, s.pc + off.signExtend 32, decide (s.x.read rs1 = s.x.read rs2)),
        (.bne rs1 rs2 off, s.pc + off.signExtend 32, decide (s.x.read rs1 ≠ s.x.read rs2)),
        (.blt rs1 rs2 off, s.pc + off.signExtend 32, decide ((s.x.read rs1).toInt < (s.x.read rs2).toInt)),
        (.bge rs1 rs2 off, s.pc + off.signExtend 32, decide ((s.x.read rs2).toInt ≤ (s.x.read rs1).toInt)),
        (.bltu rs1 rs2 off, s.pc + off.signExtend 32, decide ((s.x.read rs1).toNat < (s.x.read rs2).toNat)),
        (.bgeu rs1 rs2 off, s.pc + off.signExtend 32, decide ((s.x.read rs2).toNat ≤ (s.x.read rs1).toNat))],
      p.2.2 = true →
      (p.2.1.toNat % 4 ≠ 0 → FaultsAfter s p.1 3 (.misaligned .fetch p.2.1 4)) ∧
      (p.2.1.toNat % 4 = 0 → s.cfg.memSize < p.2.1.toNat + 4 → FaultsAfter s p.1 3 (.bounds .fetch p.2.1 4))

/-- R420, R421, R250: ECALL, alone in the pipeline, with the exit value in its argument register completes: the fifth
cycle commits, with the run terminated, and nothing else changes. -/
def Obligations.EcallTerminates : Prop :=
  ∀ s : State, Ready s → s.x.read s.cfg.exitArgReg = s.cfg.exitCode →
    ∃ t u, exec .ecall s = .next t ∧ stepN 4 t = .next u ∧ u.status = .terminated ∧ u.x = s.x ∧ u.mem = s.mem ∧
      u.cache = s.cache ∧ u.cfg = s.cfg ∧ u.pc = s.pc + 20#32 ∧
      u.ctr = { s.ctr with cycles := s.ctr.cycles + 5 }

/-- R422: ECALL, alone in the pipeline, with any other value in its argument register is fatal in its writeback stage,
with its own address and that value. -/
def Obligations.EcallWithAnotherCodeFaults : Prop :=
  ∀ s : State, Ready s → s.x.read s.cfg.exitArgReg ≠ s.cfg.exitCode →
    FaultsAfter s .ecall 3 (.syscall s.pc (s.x.read s.cfg.exitArgReg))

/-- R425: the bubble, alone in the pipeline, completes and changes nothing. -/
def Obligations.BubbleCompletes : Prop := ∀ s : State, Ready s → NoResult s .bubble

/-- R441 to R444: with `M_EXT`, every multiply, alone in the pipeline, completes: its result is written to `rd` (to
nothing when `rd` is 0) and nothing else changes. -/
def Obligations.MultipliesComplete : Prop :=
  ∀ (s : State) (rd rs1 rs2 : Reg) (a b : Word), Ready s → s.cfg.mExt = true → a = s.x.read rs1 → b = s.x.read rs2 →
    RegisterResult s (.mul rd rs1 rs2) rd (BitVec.ofNat 32 (a.toNat * b.toNat)) ∧
    RegisterResult s (.mulh rd rs1 rs2) rd (BitVec.ofInt 32 ((a.toInt * b.toInt) >>> (32 : Nat))) ∧
    RegisterResult s (.mulhsu rd rs1 rs2) rd (BitVec.ofInt 32 ((a.toInt * (b.toNat : Int)) >>> (32 : Nat))) ∧
    RegisterResult s (.mulhu rd rs1 rs2) rd (BitVec.ofNat 32 ((a.toNat * b.toNat) >>> 32))

/-- R445 to R449: with `M_EXT`, every divide, alone in the pipeline, completes outside the corner cases, and in them with
`DIV_CORNER` `riscv`: its result is written to `rd` (to nothing when `rd` is 0) and nothing else changes. -/
def Obligations.DividesComplete : Prop :=
  ∀ (s : State) (rd rs1 rs2 : Reg) (a b : Word), Ready s → s.cfg.mExt = true → a = s.x.read rs1 → b = s.x.read rs2 →
    (b ≠ 0#32 →
      RegisterResult s (.divu rd rs1 rs2) rd (BitVec.ofNat 32 (a.toNat / b.toNat)) ∧
      RegisterResult s (.remu rd rs1 rs2) rd (BitVec.ofNat 32 (a.toNat % b.toNat))) ∧
    (b ≠ 0#32 → ¬(a = 0x80000000#32 ∧ b = 0xFFFFFFFF#32) →
      RegisterResult s (.div rd rs1 rs2) rd (BitVec.ofInt 32 (a.toInt.tdiv b.toInt)) ∧
      RegisterResult s (.rem rd rs1 rs2) rd (BitVec.ofInt 32 (a.toInt - b.toInt * a.toInt.tdiv b.toInt))) ∧
    (s.cfg.divCorner = .riscv → b = 0#32 →
      RegisterResult s (.div rd rs1 rs2) rd 0xFFFFFFFF#32 ∧ RegisterResult s (.divu rd rs1 rs2) rd 0xFFFFFFFF#32 ∧
      RegisterResult s (.rem rd rs1 rs2) rd a ∧ RegisterResult s (.remu rd rs1 rs2) rd a) ∧
    (s.cfg.divCorner = .riscv → a = 0x80000000#32 → b = 0xFFFFFFFF#32 →
      RegisterResult s (.div rd rs1 rs2) rd 0x80000000#32 ∧ RegisterResult s (.rem rd rs1 rs2) rd 0#32)

/-- R449, R607: with `M_EXT` and `DIV_CORNER` `fault`, a divide by zero and the signed overflow are fatal in the execute
stage, with the instruction's address and both operands. -/
def Obligations.DivideCornersFault : Prop :=
  ∀ (s : State) (rd rs1 rs2 : Reg), ReadyForTransfer s → s.cfg.mExt = true → s.cfg.divCorner = .fault →
    (s.x.read rs2 = 0#32 →
      ∀ i ∈ [Instr.div rd rs1 rs2, .divu rd rs1 rs2, .rem rd rs1 rs2, .remu rd rs1 rs2],
        FaultsAfter s i 1 (.arith s.pc (s.x.read rs1) (s.x.read rs2))) ∧
    (s.x.read rs1 = 0x80000000#32 → s.x.read rs2 = 0xFFFFFFFF#32 →
      ∀ i ∈ [Instr.div rd rs1 rs2, .rem rd rs1 rs2],
        FaultsAfter s i 1 (.arith s.pc (s.x.read rs1) (s.x.read rs2)))

/-- R440, R160: without `M_EXT` the word of a multiply or divide is a decode error; its meaning, given such a machine,
answers the same fault (DESIGN CHOICE, log 7). -/
def Obligations.MultiplyAndDivideNeedTheExtension : Prop :=
  ∀ (s : State) (rd rs1 rs2 : Reg), s.status = .running → s.cfg.mExt = false →
    ∀ i ∈ [Instr.mul rd rs1 rs2, .mulh rd rs1 rs2, .mulhsu rd rs1 rs2, .mulhu rd rs1 rs2, .div rd rs1 rs2,
        .divu rd rs1 rs2, .rem rd rs1 rs2, .remu rd rs1 rs2],
      exec i s = .fault (.decode s.pc (encode i)) ∧
      (s.pc.toNat % 4 = 0 → s.pc.toNat + 4 ≤ s.cfg.memSize →
        (fetchMemory s).readWidth s.pc.toNat .word = encode i → step s = .fault (.decode s.pc (encode i)))

/-! ## The cache engine (48_cache_engine.md) -/

/-- R475, R476, R477, R480, R481, R482, R485: a probe advances the clock of the set it names and changes one line of it:
it touches the lowest line that matches, else fills the lowest invalid line, else overwrites the victim, which is the
lowest-indexed of the lines that the policy ranks first; and it counts a hit, a miss, or a miss and an eviction. -/
def Obligations.ProbeOutcomes : Prop :=
  ∀ (c : Config) (k k' : CacheState) (a : Word) (r : ProbeResult), probe c k a = .ok (k', r) →
    ∃ S S' : CacheSet, k.sets[setOf c a]? = some S ∧ S'.clock = S.clock + 1 ∧
      k'.sets = k.sets.set (setOf c a) S' ∧
      ((∃ i l, S.lines[i]? = some l ∧ l.valid = true ∧ l.tag = tagOf c a ∧
          (∀ j < i, ∀ m, S.lines[j]? = some m → ¬(m.valid = true ∧ m.tag = tagOf c a)) ∧
          S'.lines = S.lines.set i { l with ts := S.clock + 1, count := l.count + 1 } ∧ r = .hit ∧
          k'.hits = k.hits + 1 ∧ k'.misses = k.misses ∧ k'.evictions = k.evictions) ∨
       ((∀ m ∈ S.lines, ¬(m.valid = true ∧ m.tag = tagOf c a)) ∧
        ∃ i l, S.lines[i]? = some l ∧ l.valid = false ∧ (∀ j < i, ∀ m, S.lines[j]? = some m → m.valid = true) ∧
          S'.lines =
            S.lines.set i { valid := true, tag := tagOf c a, block := blockOf c a, ts := S.clock + 1, count := 1 } ∧
          r = .miss (blockOf c a) ∧
          k'.hits = k.hits ∧ k'.misses = k.misses + 1 ∧ k'.evictions = k.evictions) ∨
       ((∀ m ∈ S.lines, m.valid = true ∧ m.tag ≠ tagOf c a) ∧
        ∃ v l, S.lines[v]? = some l ∧
          (c.policy = .lru →
            (∀ m ∈ S.lines, l.ts ≤ m.ts) ∧ ∀ j < v, ∀ m, S.lines[j]? = some m → l.ts < m.ts) ∧
          (c.policy = .lfu →
            (∀ m ∈ S.lines, l.count < m.count ∨ (l.count = m.count ∧ l.ts ≤ m.ts)) ∧
            ∀ j < v, ∀ m, S.lines[j]? = some m → l.count < m.count ∨ (l.count = m.count ∧ l.ts < m.ts)) ∧
          S'.lines =
            S.lines.set v { valid := true, tag := tagOf c a, block := blockOf c a, ts := S.clock + 1, count := 1 } ∧
          r = .evict l.block (blockOf c a) ∧
          k'.hits = k.hits ∧ k'.misses = k.misses + 1 ∧ k'.evictions = k.evictions + 1))

/-- R491: after a probe of one address, a probe of any address with the same tag and set hits. -/
def Obligations.SecondProbeOfABlockHits : Prop :=
  ∀ (c : Config) (k k' : CacheState) (a b : Word) (r : ProbeResult), probe c k a = .ok (k', r) →
    tagOf c b = tagOf c a → setOf c b = setOf c a → ∃ k'', probe c k' b = .ok (k'', .hit)

/-- R472, R473: the parts of an address put the address together again, they are the bit fields that the rule names, and
two addresses are in the same block exactly when they have the same tag and set. -/
def Obligations.AddressDecomposition : Prop :=
  ∀ (c : Config), c.sBits + c.bBits ≤ 32 →
    (∀ a : Word,
      a.toNat = tagOf c a * 2 ^ (c.bBits + c.sBits) + setOf c a * 2 ^ c.bBits + offsetOf c a ∧
      offsetOf c a < 2 ^ c.bBits ∧ setOf c a = (a.toNat >>> c.bBits) % 2 ^ c.sBits ∧
      tagOf c a = a.toNat >>> (c.bBits + c.sBits) ∧ (blockOf c a).toNat = a.toNat - offsetOf c a ∧
      tagOf c (blockOf c a) = tagOf c a ∧ setOf c (blockOf c a) = setOf c a) ∧
    (∀ a b : Word, blockOf c a = blockOf c b ↔ tagOf c a = tagOf c b ∧ setOf c a = setOf c b)

/-- R62, R478: a probe of a well-formed cache answers, keeps it well formed (in one set no two valid lines have the same
tag; a valid line's tag and set are those of its block), and every line that was valid stays valid. -/
def Obligations.ProbeKeepsTheCacheInvariant : Prop :=
  ∀ (c : Config) (k : CacheState) (a : Word), c.valid = true → CacheWf c k →
    ∃ k' r, probe c k a = .ok (k', r) ∧ CacheWf c k' ∧
      ∀ (i j : Nat) (S : CacheSet) (l : Line), k.sets[i]? = some S → S.lines[j]? = some l → l.valid = true →
        ∃ (S' : CacheSet) (l' : Line), k'.sets[i]? = some S' ∧ S'.lines[j]? = some l' ∧ l'.valid = true

/-- R487: a host probe is a probe of the machine's cache with any 32-bit address, and changes nothing else. That it is
allowed in a terminated or faulted state too is the model's choice (log 18). -/
def Obligations.HostProbeChangesTheCacheOnly : Prop :=
  ∀ (s u : State) (a : Word) (r : ProbeResult), hostProbe s a = .ok (u, r) →
    probe s.cfg s.cache a = .ok (u.cache, r) ∧ u = { s with cache := u.cache }

/-! ## Memory and registers -/

/-- R103: a read is little-endian and zero-extended; a little-endian write sets exactly its bytes, keeps the canonical form
of memory, and is read back by a read of its width. -/
def Obligations.MemoryWriteThenRead : Prop :=
  ∀ (m : Memory) (a : Nat) (v : Word) (n : Width), m.wf = true →
    (m.readWidth a .byte = (m.byte a).zeroExtend 32 ∧ m.readWidth a .half = (m.byte (a + 1) ++ m.byte a).zeroExtend 32 ∧
      m.readWidth a .word = m.byte (a + 3) ++ m.byte (a + 2) ++ m.byte (a + 1) ++ m.byte a) ∧
    (m.writeWidth a v n).wf = true ∧
    (∀ k < n.bytes, (m.writeWidth a v n).byte (a + k) = v.extractLsb' (8 * k) 8) ∧
    (∀ q, q < a ∨ a + n.bytes ≤ q → (m.writeWidth a v n).byte q = m.byte q) ∧
    (m.writeWidth a v n).readWidth a n = v &&& BitVec.ofNat 32 (2 ^ (8 * n.bytes) - 1)

/-- R41, R16: register 0 reads zero, a write to it is discarded, and a write to another register changes that register
alone. -/
def Obligations.RegisterZeroIsHardWired : Prop :=
  ∀ (x : RegFile) (r q : Reg) (v : Word),
    x.read 0#5 = 0#32 ∧ x.write 0#5 v = x ∧
    (x.write r v).read q = if q = r ∧ r ≠ 0#5 then v else x.read q

/-! ## Reset and the invariant -/

/-- R70, R700, R11, R471: creating an instance gives every piece of state its reset value, for every configuration in
range, image within memory, register values and start address; the bytes that the image names have its values and all
others are 0. A configuration out of any of its ranges is refused. The model's choices: a start address that is no multiple
of 4 is taken (log 10); of two cells with one address the later wins, and an image that names a byte outside memory is
refused (log 11); the state after reset is the instance with the default arguments (log 3, log 4) and the configuration of
log 2. -/
def Obligations.LaunchGivesTheResetValues : Prop :=
  (∀ (c : Config) (image : List Host.Cell) (regs : RegFile) (startPc : Word),
    1 ≤ c.ways → c.sBits + c.bBits ≤ 32 → 4 ≤ c.memSize → c.memSize ≤ 2 ^ 32 → c.exitArgReg ≠ 0#5 →
    (∀ cell ∈ image, cell.1 < c.memSize) →
    ∃ u, launch c image regs startPc = .next u ∧ u.cfg = c ∧ u.pc = startPc ∧ u.status = .running ∧
      (∀ r : Reg, u.x.read r = if r = 0#5 then 0#32 else regs[r.toNat]) ∧
      (∀ (earlier later : List Host.Cell) (a : Nat) (b : Byte), image = earlier ++ (a, b) :: later →
        (∀ cell ∈ later, cell.1 ≠ a) → u.mem.byte a = b) ∧
      (∀ a, (∀ cell ∈ image, cell.1 ≠ a) → u.mem.byte a = 0#8) ∧ u.mem.wf = true ∧
      u.ifid = bubbleIfId ∧ u.idex = bubbleIdEx ∧ u.exmem = bubbleExMem ∧ u.memwb = bubbleMemWb ∧
      u.ctr = { cycles := 0, stalls := 0, branchesTaken := 0, fwdEx := 0, fwdWb := 0 } ∧
      u.cache.hits = 0 ∧ u.cache.misses = 0 ∧ u.cache.evictions = 0 ∧ u.cache.sets.length = 2 ^ c.sBits ∧
      (∀ S ∈ u.cache.sets, S.clock = 0 ∧ S.lines.length = c.ways ∧
        ∀ l ∈ S.lines, l = { valid := false, tag := 0, block := 0#32, ts := 0, count := 0 })) ∧
  (∀ (c : Config) (image : List Host.Cell) (regs : RegFile) (startPc : Word),
    ¬(1 ≤ c.ways ∧ c.sBits + c.bBits ≤ 32 ∧ 4 ≤ c.memSize ∧ c.memSize ≤ 2 ^ 32 ∧ c.exitArgReg ≠ 0#5) →
    launch c image regs startPc = .refused .badConfiguration) ∧
  (∀ (c : Config) (image : List Host.Cell) (regs : RegFile) (startPc : Word),
    1 ≤ c.ways → c.sBits + c.bBits ≤ 32 → 4 ≤ c.memSize → c.memSize ≤ 2 ^ 32 → c.exitArgReg ≠ 0#5 →
    (∃ cell ∈ image, c.memSize ≤ cell.1) → launch c image regs startPc = .refused .badImage) ∧
  launch Config.default [] (Vector.replicate 32 0#32) 0#32 = .next State.reset

/-- The state after reset, with the configuration that the model chose (log 2), meets the invariant. -/
def Obligations.ResetMeetsTheInvariant : Prop := State.reset.Inv

/-- R41, R60, R62, R206, R245: every step keeps the invariant, from every state that meets it. -/
def Obligations.StepKeepsTheInvariant : Prop := ∀ s t : State, s.Inv → step s = .next t → t.Inv

/-- The same of every instance that can be created: it meets the invariant. Which start addresses and images a launch
takes is the model's choice where the spec leaves it open (log 10, log 11). -/
def Obligations.LaunchMeetsTheInvariant : Prop :=
  ∀ (c : Config) (image : List Host.Cell) (regs : RegFile) (startPc : Word) (u : State),
    launch c image regs startPc = .next u → u.Inv

/-! ## Pseudo-instructions (30_encoding.md section 5) -/

/-- R181: every expansion is of admitted instructions, which need no extension and decode from their words when their
offsets are even; the two parts of a split immediate give it back, and the low part alone does when it is in ADDI's range;
and every word that `csrr`, `fence`, `ebreak` or a floating-point pseudo-instruction expands to is refused by the decoder. -/
def Obligations.PseudoInstructionsExpandIntoTheCore : Prop :=
  (∀ (mExt : Bool) (p : Pseudo) (i : Instr), i ∈ p.expand → i.offsetEven = true →
    i.wellFormed mExt = true ∧ decode mExt (encode i) = .ok i) ∧
  (∀ imm : Word, (splitHigh imm ++ 0#12) + (splitLow imm).signExtend 32 = imm) ∧
  (∀ imm : Word, -2048 ≤ imm.toInt → imm.toInt ≤ 2047 → (splitLow imm).signExtend 32 = imm) ∧
  (∀ (rd : Reg) (imm : Word), (Pseudo.li rd imm).expand =
    if -2048 ≤ imm.toInt ∧ imm.toInt ≤ 2047 then [.addi rd 0#5 (splitLow imm)]
    else [.lui rd (splitHigh imm), .addi rd rd (splitLow imm)]) ∧
  (∀ (mExt : Bool) (w : Word),
    w.extractLsb' 0 7 ∈ [0x0F#7, 0x07#7, 0x27#7, 0x43#7, 0x47#7, 0x4B#7, 0x4F#7, 0x53#7] ∨
      (w.extractLsb' 0 7 = 0x73#7 ∧ w ≠ 0x00000073#32) →
    ∃ err, decode mExt w = .error err)

end
end

