-- ==== Sys2Proof/Laws/State.lean ====
section
/-! SUPPORT. Record updates: one lemma per field per update of the state. -/

namespace Sys2Proof.Machine

/-! ## `commit` (40_pipeline_engine.md R245) -/

section
variable (s : State) (v : InstructionView) (e : ExMemLatch) (m : MemOut) (x : RegFile) (term : Bool)

@[simp] theorem commit_cfg : (commit s v e m x term).cfg = s.cfg := rfl
@[simp] theorem commit_x : (commit s v e m x term).x = x := rfl
@[simp] theorem commit_pc : (commit s v e m x term).pc = nextPc s := rfl
@[simp] theorem commit_mem : (commit s v e m x term).mem = m.mem := rfl
@[simp] theorem commit_ifid : (commit s v e m x term).ifid = nextIfId s v := rfl
@[simp] theorem commit_idex : (commit s v e m x term).idex = nextIdEx s := rfl
@[simp] theorem commit_exmem : (commit s v e m x term).exmem = nextExMem s e := rfl
@[simp] theorem commit_memwb : (commit s v e m x term).memwb = m.latch := rfl
@[simp] theorem commit_ctr : (commit s v e m x term).ctr = nextCounters s := rfl
@[simp] theorem commit_cache : (commit s v e m x term).cache = m.cache := rfl
@[simp] theorem commit_status : (commit s v e m x term).status = if term then .terminated else .running := rfl

end

/-! ## `State.afterFatal` (60_exceptions.md R610) -/

section
variable (s : State) (f : Fault)

@[simp] theorem State.afterFatal_cfg : (s.afterFatal f).cfg = s.cfg := rfl
@[simp] theorem State.afterFatal_x : (s.afterFatal f).x = s.x := rfl
@[simp] theorem State.afterFatal_pc : (s.afterFatal f).pc = s.pc := rfl
@[simp] theorem State.afterFatal_mem : (s.afterFatal f).mem = s.mem := rfl
@[simp] theorem State.afterFatal_ifid : (s.afterFatal f).ifid = s.ifid := rfl
@[simp] theorem State.afterFatal_idex : (s.afterFatal f).idex = s.idex := rfl
@[simp] theorem State.afterFatal_exmem : (s.afterFatal f).exmem = s.exmem := rfl
@[simp] theorem State.afterFatal_memwb : (s.afterFatal f).memwb = s.memwb := rfl
@[simp] theorem State.afterFatal_ctr : (s.afterFatal f).ctr = s.ctr := rfl
@[simp] theorem State.afterFatal_cache : (s.afterFatal f).cache = s.cache := rfl
@[simp] theorem State.afterFatal_status : (s.afterFatal f).status = .faulted f := rfl

end

/-! ## The state as created (10_state.md R70) -/

section
variable (c : Config) (image : Memory) (regs : RegFile) (startPc : Word)

@[simp] theorem State.created_cfg : (State.created c image regs startPc).cfg = c := rfl
@[simp] theorem State.created_x : (State.created c image regs startPc).x = regs.set 0 0#32 := rfl
@[simp] theorem State.created_pc : (State.created c image regs startPc).pc = startPc := rfl
@[simp] theorem State.created_mem : (State.created c image regs startPc).mem = image := rfl
@[simp] theorem State.created_ifid : (State.created c image regs startPc).ifid = bubbleIfId := rfl
@[simp] theorem State.created_idex : (State.created c image regs startPc).idex = bubbleIdEx := rfl
@[simp] theorem State.created_exmem : (State.created c image regs startPc).exmem = bubbleExMem := rfl
@[simp] theorem State.created_memwb : (State.created c image regs startPc).memwb = bubbleMemWb := rfl
@[simp] theorem State.created_ctr : (State.created c image regs startPc).ctr = Counters.zero := rfl
@[simp] theorem State.created_cache : (State.created c image regs startPc).cache = CacheState.created c := rfl
@[simp] theorem State.created_status : (State.created c image regs startPc).status = .running := rfl

end

/-! ## `State.withFetchWord` -/

section
variable (s : State) (nbits w : Nat)

@[simp] theorem State.withFetchWord_x : (s.withFetchWord nbits w).x = s.x := rfl
@[simp] theorem State.withFetchWord_pc : (s.withFetchWord nbits w).pc = s.pc := rfl
@[simp] theorem State.withFetchWord_mem :
    (s.withFetchWord nbits w).mem = s.mem.writeWidth s.pc.toNat (BitVec.ofNat 32 (w % 2 ^ nbits)) .word := rfl
@[simp] theorem State.withFetchWord_ifid : (s.withFetchWord nbits w).ifid = s.ifid := rfl
@[simp] theorem State.withFetchWord_idex : (s.withFetchWord nbits w).idex = s.idex := rfl
@[simp] theorem State.withFetchWord_exmem : (s.withFetchWord nbits w).exmem = s.exmem := rfl
@[simp] theorem State.withFetchWord_memwb : (s.withFetchWord nbits w).memwb = s.memwb := rfl
@[simp] theorem State.withFetchWord_ctr : (s.withFetchWord nbits w).ctr = s.ctr := rfl
@[simp] theorem State.withFetchWord_cache : (s.withFetchWord nbits w).cache = s.cache := rfl
@[simp] theorem State.withFetchWord_status : (s.withFetchWord nbits w).status = s.status := rfl

end

/-! ## `countProbe` (48_cache_engine.md R485) -/

section
variable (k : CacheState) (a b : Word)

@[simp] theorem countProbe_sets (r : ProbeResult) : (countProbe k r).sets = k.sets := by cases r <;> rfl
@[simp] theorem countProbe_hit_hits : (countProbe k .hit).hits = k.hits + 1 := rfl
@[simp] theorem countProbe_hit_misses : (countProbe k .hit).misses = k.misses := rfl
@[simp] theorem countProbe_hit_evictions : (countProbe k .hit).evictions = k.evictions := rfl
@[simp] theorem countProbe_miss_hits : (countProbe k (.miss a)).hits = k.hits := rfl
@[simp] theorem countProbe_miss_misses : (countProbe k (.miss a)).misses = k.misses + 1 := rfl
@[simp] theorem countProbe_miss_evictions : (countProbe k (.miss a)).evictions = k.evictions := rfl
@[simp] theorem countProbe_evict_hits : (countProbe k (.evict a b)).hits = k.hits := rfl
@[simp] theorem countProbe_evict_misses : (countProbe k (.evict a b)).misses = k.misses + 1 := rfl
@[simp] theorem countProbe_evict_evictions : (countProbe k (.evict a b)).evictions = k.evictions + 1 := rfl

end

end Sys2Proof.Machine
end

