-- ==== Sys2Proof/Laws/Cache.lean ====
section
/-! SUPPORT. The cache: everything a probe can answer (48_cache_engine.md R475). -/

namespace Sys2Proof.Machine

/-- Everything a probe can do to its set: a hit, a fill of an invalid line, or an overwrite of the victim. -/
theorem probeSet_ok_cases {c : Config} {S S' : CacheSet} {a : Word} {r : ProbeResult}
    (h : probeSet c S a = .ok (S', r)) :
    (∃ i l, S.lines.findIdx? (fun l => l.valid && l.tag == tagOf c a) = some i ∧ S.lines[i]? = some l ∧ r = .hit ∧
      S' = { clock := S.clock + 1, lines := S.lines.set i { l with ts := S.clock + 1, count := l.count + 1 } }) ∨
    (S.lines.findIdx? (fun l => l.valid && l.tag == tagOf c a) = none ∧
      ∃ i, S.lines.findIdx? (fun l => !l.valid) = some i ∧ r = .miss (blockOf c a) ∧
        S' = { clock := S.clock + 1, lines := S.lines.set i (filledLine c a (S.clock + 1)) }) ∨
    (S.lines.findIdx? (fun l => l.valid && l.tag == tagOf c a) = none ∧
      S.lines.findIdx? (fun l => !l.valid) = none ∧
      ∃ v l, victimIndex c.policy S.lines = some v ∧ S.lines[v]? = some l ∧ r = .evict l.block (blockOf c a) ∧
        S' = { clock := S.clock + 1, lines := S.lines.set v (filledLine c a (S.clock + 1)) }) := by
  unfold probeSet at h
  cases h1 : S.lines.findIdx? (fun l => l.valid && l.tag == tagOf c a) with
  | some i =>
    simp only [h1] at h
    cases hl : S.lines[i]? with
    | none => simp [hl] at h
    | some l =>
      simp only [hl, Except.ok.injEq, Prod.mk.injEq] at h
      exact .inl ⟨i, l, rfl, hl, h.2.symm, h.1.symm⟩
  | none =>
    simp only [h1] at h
    cases h2 : S.lines.findIdx? (fun l => !l.valid) with
    | some i =>
      simp only [h2, Except.ok.injEq, Prod.mk.injEq] at h
      exact .inr (.inl ⟨rfl, i, rfl, h.2.symm, h.1.symm⟩)
    | none =>
      simp only [h2] at h
      cases h3 : victimIndex c.policy S.lines with
      | none => simp [h3] at h
      | some v =>
        simp only [h3] at h
        cases hl : S.lines[v]? with
        | none => simp [hl] at h
        | some l =>
          simp only [hl, Except.ok.injEq, Prod.mk.injEq] at h
          exact .inr (.inr ⟨rfl, rfl, v, l, rfl, hl, h.2.symm, h.1.symm⟩)

/-- A probe changes the set that the address names, and the counters by its result. -/
theorem probe_ok_iff {c : Config} {k k' : CacheState} {a : Word} {r : ProbeResult} :
    probe c k a = .ok (k', r) ↔
      ∃ S S', k.sets[setOf c a]? = some S ∧ probeSet c S a = .ok (S', r) ∧
        k' = countProbe { k with sets := k.sets.set (setOf c a) S' } r := by
  unfold probe
  cases k.sets[setOf c a]? with
  | none => simp
  | some S =>
    cases hp : probeSet c S a with
    | error f => simp [hp]
    | ok p =>
      obtain ⟨S', r'⟩ := p
      simp only [Except.ok.injEq, Prod.mk.injEq, Option.some.injEq, exists_and_left, exists_eq_left', hp]
      constructor
      · rintro ⟨rfl, rfl⟩
        exact ⟨S', ⟨rfl, rfl⟩, rfl⟩
      · rintro ⟨S'', ⟨rfl, rfl⟩, rfl⟩
        exact ⟨rfl, rfl⟩

/-- The victim scan answers an index of the list it scans, or the one it started with. -/
theorem victimScan_lt (p : Policy) (ls : List Line) (i vi : Nat) (v : Line) (n : Nat) (h : vi < n) (hn : i + ls.length ≤ n) :
    victimScan p ls i vi v < n := by
  induction ls generalizing i vi v with
  | nil => exact h
  | cons l ls ih =>
    simp only [List.length_cons] at hn
    unfold victimScan
    split
    · exact ih (i + 1) i l (by omega) (by omega)
    · exact ih (i + 1) vi v h (by omega)

/-- A set with lines has a victim among them (R481). -/
theorem victimIndex_of_ne_nil (p : Policy) {ls : List Line} (h : ls ≠ []) :
    ∃ v, victimIndex p ls = some v ∧ v < ls.length := by
  cases ls with
  | nil => exact absurd rfl h
  | cons l ls =>
    refine ⟨_, rfl, victimScan_lt p ls 1 0 l (l :: ls).length (by simp) (by simp; omega)⟩

/-- A probe of a set that has lines answers (48_cache_engine.md R489). -/
theorem probeSet_total (c : Config) (S : CacheSet) (a : Word) (h : S.lines ≠ []) :
    ∃ S' r, probeSet c S a = .ok (S', r) := by
  unfold probeSet
  cases h1 : S.lines.findIdx? (fun l => l.valid && l.tag == tagOf c a) with
  | some i =>
    have hi : i < S.lines.length := (List.findIdx?_eq_some_iff_getElem.1 h1).1
    simp [List.getElem?_eq_getElem hi]
  | none =>
    cases h2 : S.lines.findIdx? (fun l => !l.valid) with
    | some i => simp
    | none =>
      obtain ⟨v, hv, hlt⟩ := victimIndex_of_ne_nil c.policy h
      simp [hv, List.getElem?_eq_getElem hlt]

end Sys2Proof.Machine
end

