-- ==== Sys2Proof/Laws/Decode.lean ====
section
/-! SUPPORT. Instruction words: what each field of an encoded word reads as (30_encoding.md R142, R170). -/

namespace Sys2Proof

/-! ## Slices of a concatenation -/

/-- A slice of the low part of a concatenation. -/
theorem extract_append_low {n m : Nat} (a : BitVec n) (b : BitVec m) (s l : Nat) (h : s + l ≤ m) :
    (a ++ b).extractLsb' s l = b.extractLsb' s l := by
  ext i hi
  simp only [BitVec.getElem_extractLsb', BitVec.getLsbD_append]
  rw [if_pos (by omega)]

/-- A slice of the high part of a concatenation. -/
theorem extract_append_high {n m : Nat} (a : BitVec n) (b : BitVec m) (s l : Nat) (h : m ≤ s) :
    (a ++ b).extractLsb' s l = a.extractLsb' (s - m) l := by
  ext i hi
  simp only [BitVec.getElem_extractLsb', BitVec.getLsbD_append]
  rw [if_neg (by omega)]
  congr 1; omega

/-- The slice that is all of a vector. -/
theorem extract_whole {n : Nat} (a : BitVec n) : a.extractLsb' 0 n = a := by simp

/-! ## Format R -/

theorem encodeR_funct7 (f7 : BitVec 7) (f3 : BitVec 3) (op : BitVec 7) (rd rs1 rs2 : Reg) : fieldFunct7 (encodeR f7 f3 op rd rs1 rs2) = f7 := by
  unfold fieldFunct7 encodeR
  refine (extract_append_high (f7 ++ rs2 ++ rs1 ++ f3 ++ rd) op 25 7 (by decide)).trans ?_
  refine (extract_append_high (f7 ++ rs2 ++ rs1 ++ f3) rd 18 7 (by decide)).trans ?_
  refine (extract_append_high (f7 ++ rs2 ++ rs1) f3 13 7 (by decide)).trans ?_
  refine (extract_append_high (f7 ++ rs2) rs1 10 7 (by decide)).trans ?_
  refine (extract_append_high (f7) rs2 5 7 (by decide)).trans ?_
  exact extract_whole f7

theorem encodeR_rs2 (f7 : BitVec 7) (f3 : BitVec 3) (op : BitVec 7) (rd rs1 rs2 : Reg) : fieldRs2 (encodeR f7 f3 op rd rs1 rs2) = rs2 := by
  unfold fieldRs2 encodeR
  refine (extract_append_high (f7 ++ rs2 ++ rs1 ++ f3 ++ rd) op 20 5 (by decide)).trans ?_
  refine (extract_append_high (f7 ++ rs2 ++ rs1 ++ f3) rd 13 5 (by decide)).trans ?_
  refine (extract_append_high (f7 ++ rs2 ++ rs1) f3 8 5 (by decide)).trans ?_
  refine (extract_append_high (f7 ++ rs2) rs1 5 5 (by decide)).trans ?_
  refine (extract_append_low (f7) rs2 0 5 (by decide)).trans ?_
  exact extract_whole rs2

theorem encodeR_rs1 (f7 : BitVec 7) (f3 : BitVec 3) (op : BitVec 7) (rd rs1 rs2 : Reg) : fieldRs1 (encodeR f7 f3 op rd rs1 rs2) = rs1 := by
  unfold fieldRs1 encodeR
  refine (extract_append_high (f7 ++ rs2 ++ rs1 ++ f3 ++ rd) op 15 5 (by decide)).trans ?_
  refine (extract_append_high (f7 ++ rs2 ++ rs1 ++ f3) rd 8 5 (by decide)).trans ?_
  refine (extract_append_high (f7 ++ rs2 ++ rs1) f3 3 5 (by decide)).trans ?_
  refine (extract_append_low (f7 ++ rs2) rs1 0 5 (by decide)).trans ?_
  exact extract_whole rs1

theorem encodeR_funct3 (f7 : BitVec 7) (f3 : BitVec 3) (op : BitVec 7) (rd rs1 rs2 : Reg) : fieldFunct3 (encodeR f7 f3 op rd rs1 rs2) = f3 := by
  unfold fieldFunct3 encodeR
  refine (extract_append_high (f7 ++ rs2 ++ rs1 ++ f3 ++ rd) op 12 3 (by decide)).trans ?_
  refine (extract_append_high (f7 ++ rs2 ++ rs1 ++ f3) rd 5 3 (by decide)).trans ?_
  refine (extract_append_low (f7 ++ rs2 ++ rs1) f3 0 3 (by decide)).trans ?_
  exact extract_whole f3

theorem encodeR_rd (f7 : BitVec 7) (f3 : BitVec 3) (op : BitVec 7) (rd rs1 rs2 : Reg) : fieldRd (encodeR f7 f3 op rd rs1 rs2) = rd := by
  unfold fieldRd encodeR
  refine (extract_append_high (f7 ++ rs2 ++ rs1 ++ f3 ++ rd) op 7 5 (by decide)).trans ?_
  refine (extract_append_low (f7 ++ rs2 ++ rs1 ++ f3) rd 0 5 (by decide)).trans ?_
  exact extract_whole rd

theorem encodeR_opcode (f7 : BitVec 7) (f3 : BitVec 3) (op : BitVec 7) (rd rs1 rs2 : Reg) : fieldOpcode (encodeR f7 f3 op rd rs1 rs2) = op := by
  unfold fieldOpcode encodeR
  refine (extract_append_low (f7 ++ rs2 ++ rs1 ++ f3 ++ rd) op 0 7 (by decide)).trans ?_
  exact extract_whole op

/-! ## Format I -/

theorem encodeI_imm (f3 : BitVec 3) (op : BitVec 7) (rd rs1 : Reg) (imm : BitVec 12) : fieldImmI (encodeI f3 op rd rs1 imm) = imm := by
  unfold fieldImmI encodeI
  refine (extract_append_high (imm ++ rs1 ++ f3 ++ rd) op 20 12 (by decide)).trans ?_
  refine (extract_append_high (imm ++ rs1 ++ f3) rd 13 12 (by decide)).trans ?_
  refine (extract_append_high (imm ++ rs1) f3 8 12 (by decide)).trans ?_
  refine (extract_append_high (imm) rs1 5 12 (by decide)).trans ?_
  exact extract_whole imm

theorem encodeI_rs1 (f3 : BitVec 3) (op : BitVec 7) (rd rs1 : Reg) (imm : BitVec 12) : fieldRs1 (encodeI f3 op rd rs1 imm) = rs1 := by
  unfold fieldRs1 encodeI
  refine (extract_append_high (imm ++ rs1 ++ f3 ++ rd) op 15 5 (by decide)).trans ?_
  refine (extract_append_high (imm ++ rs1 ++ f3) rd 8 5 (by decide)).trans ?_
  refine (extract_append_high (imm ++ rs1) f3 3 5 (by decide)).trans ?_
  refine (extract_append_low (imm) rs1 0 5 (by decide)).trans ?_
  exact extract_whole rs1

theorem encodeI_funct3 (f3 : BitVec 3) (op : BitVec 7) (rd rs1 : Reg) (imm : BitVec 12) : fieldFunct3 (encodeI f3 op rd rs1 imm) = f3 := by
  unfold fieldFunct3 encodeI
  refine (extract_append_high (imm ++ rs1 ++ f3 ++ rd) op 12 3 (by decide)).trans ?_
  refine (extract_append_high (imm ++ rs1 ++ f3) rd 5 3 (by decide)).trans ?_
  refine (extract_append_low (imm ++ rs1) f3 0 3 (by decide)).trans ?_
  exact extract_whole f3

theorem encodeI_rd (f3 : BitVec 3) (op : BitVec 7) (rd rs1 : Reg) (imm : BitVec 12) : fieldRd (encodeI f3 op rd rs1 imm) = rd := by
  unfold fieldRd encodeI
  refine (extract_append_high (imm ++ rs1 ++ f3 ++ rd) op 7 5 (by decide)).trans ?_
  refine (extract_append_low (imm ++ rs1 ++ f3) rd 0 5 (by decide)).trans ?_
  exact extract_whole rd

theorem encodeI_opcode (f3 : BitVec 3) (op : BitVec 7) (rd rs1 : Reg) (imm : BitVec 12) : fieldOpcode (encodeI f3 op rd rs1 imm) = op := by
  unfold fieldOpcode encodeI
  refine (extract_append_low (imm ++ rs1 ++ f3 ++ rd) op 0 7 (by decide)).trans ?_
  exact extract_whole op

/-! ## Format S -/

theorem encodeS_rs2 (f3 : BitVec 3) (op : BitVec 7) (rs1 rs2 : Reg) (imm : BitVec 12) : fieldRs2 (encodeS f3 op rs1 rs2 imm) = rs2 := by
  unfold fieldRs2 encodeS
  refine (extract_append_high ((imm.extractLsb' 5 7) ++ rs2 ++ rs1 ++ f3 ++ (imm.extractLsb' 0 5)) op 20 5 (by decide)).trans ?_
  refine (extract_append_high ((imm.extractLsb' 5 7) ++ rs2 ++ rs1 ++ f3) (imm.extractLsb' 0 5) 13 5 (by decide)).trans ?_
  refine (extract_append_high ((imm.extractLsb' 5 7) ++ rs2 ++ rs1) f3 8 5 (by decide)).trans ?_
  refine (extract_append_high ((imm.extractLsb' 5 7) ++ rs2) rs1 5 5 (by decide)).trans ?_
  refine (extract_append_low ((imm.extractLsb' 5 7)) rs2 0 5 (by decide)).trans ?_
  exact extract_whole rs2

theorem encodeS_rs1 (f3 : BitVec 3) (op : BitVec 7) (rs1 rs2 : Reg) (imm : BitVec 12) : fieldRs1 (encodeS f3 op rs1 rs2 imm) = rs1 := by
  unfold fieldRs1 encodeS
  refine (extract_append_high ((imm.extractLsb' 5 7) ++ rs2 ++ rs1 ++ f3 ++ (imm.extractLsb' 0 5)) op 15 5 (by decide)).trans ?_
  refine (extract_append_high ((imm.extractLsb' 5 7) ++ rs2 ++ rs1 ++ f3) (imm.extractLsb' 0 5) 8 5 (by decide)).trans ?_
  refine (extract_append_high ((imm.extractLsb' 5 7) ++ rs2 ++ rs1) f3 3 5 (by decide)).trans ?_
  refine (extract_append_low ((imm.extractLsb' 5 7) ++ rs2) rs1 0 5 (by decide)).trans ?_
  exact extract_whole rs1

theorem encodeS_funct3 (f3 : BitVec 3) (op : BitVec 7) (rs1 rs2 : Reg) (imm : BitVec 12) : fieldFunct3 (encodeS f3 op rs1 rs2 imm) = f3 := by
  unfold fieldFunct3 encodeS
  refine (extract_append_high ((imm.extractLsb' 5 7) ++ rs2 ++ rs1 ++ f3 ++ (imm.extractLsb' 0 5)) op 12 3 (by decide)).trans ?_
  refine (extract_append_high ((imm.extractLsb' 5 7) ++ rs2 ++ rs1 ++ f3) (imm.extractLsb' 0 5) 5 3 (by decide)).trans ?_
  refine (extract_append_low ((imm.extractLsb' 5 7) ++ rs2 ++ rs1) f3 0 3 (by decide)).trans ?_
  exact extract_whole f3

theorem encodeS_opcode (f3 : BitVec 3) (op : BitVec 7) (rs1 rs2 : Reg) (imm : BitVec 12) : fieldOpcode (encodeS f3 op rs1 rs2 imm) = op := by
  unfold fieldOpcode encodeS
  refine (extract_append_low ((imm.extractLsb' 5 7) ++ rs2 ++ rs1 ++ f3 ++ (imm.extractLsb' 0 5)) op 0 7 (by decide)).trans ?_
  exact extract_whole op

theorem encodeS_slice_25 (f3 : BitVec 3) (op : BitVec 7) (rs1 rs2 : Reg) (imm : BitVec 12) : (encodeS f3 op rs1 rs2 imm).extractLsb' 25 7 = imm.extractLsb' 5 7 := by
  unfold encodeS
  refine (extract_append_high ((imm.extractLsb' 5 7) ++ rs2 ++ rs1 ++ f3 ++ (imm.extractLsb' 0 5)) op 25 7 (by decide)).trans ?_
  refine (extract_append_high ((imm.extractLsb' 5 7) ++ rs2 ++ rs1 ++ f3) (imm.extractLsb' 0 5) 18 7 (by decide)).trans ?_
  refine (extract_append_high ((imm.extractLsb' 5 7) ++ rs2 ++ rs1) f3 13 7 (by decide)).trans ?_
  refine (extract_append_high ((imm.extractLsb' 5 7) ++ rs2) rs1 10 7 (by decide)).trans ?_
  refine (extract_append_high ((imm.extractLsb' 5 7)) rs2 5 7 (by decide)).trans ?_
  exact extract_whole (imm.extractLsb' 5 7)

theorem encodeS_slice_7 (f3 : BitVec 3) (op : BitVec 7) (rs1 rs2 : Reg) (imm : BitVec 12) : (encodeS f3 op rs1 rs2 imm).extractLsb' 7 5 = imm.extractLsb' 0 5 := by
  unfold encodeS
  refine (extract_append_high ((imm.extractLsb' 5 7) ++ rs2 ++ rs1 ++ f3 ++ (imm.extractLsb' 0 5)) op 7 5 (by decide)).trans ?_
  refine (extract_append_low ((imm.extractLsb' 5 7) ++ rs2 ++ rs1 ++ f3) (imm.extractLsb' 0 5) 0 5 (by decide)).trans ?_
  exact extract_whole (imm.extractLsb' 0 5)

/-! ## Format B -/

theorem encodeB_rs2 (f3 : BitVec 3) (op : BitVec 7) (rs1 rs2 : Reg) (off : BitVec 13) : fieldRs2 (encodeB f3 op rs1 rs2 off) = rs2 := by
  unfold fieldRs2 encodeB
  refine (extract_append_high ((off.extractLsb' 12 1) ++ (off.extractLsb' 5 6) ++ rs2 ++ rs1 ++ f3 ++ (off.extractLsb' 1 4) ++ (off.extractLsb' 11 1)) op 20 5 (by decide)).trans ?_
  refine (extract_append_high ((off.extractLsb' 12 1) ++ (off.extractLsb' 5 6) ++ rs2 ++ rs1 ++ f3 ++ (off.extractLsb' 1 4)) (off.extractLsb' 11 1) 13 5 (by decide)).trans ?_
  refine (extract_append_high ((off.extractLsb' 12 1) ++ (off.extractLsb' 5 6) ++ rs2 ++ rs1 ++ f3) (off.extractLsb' 1 4) 12 5 (by decide)).trans ?_
  refine (extract_append_high ((off.extractLsb' 12 1) ++ (off.extractLsb' 5 6) ++ rs2 ++ rs1) f3 8 5 (by decide)).trans ?_
  refine (extract_append_high ((off.extractLsb' 12 1) ++ (off.extractLsb' 5 6) ++ rs2) rs1 5 5 (by decide)).trans ?_
  refine (extract_append_low ((off.extractLsb' 12 1) ++ (off.extractLsb' 5 6)) rs2 0 5 (by decide)).trans ?_
  exact extract_whole rs2

theorem encodeB_rs1 (f3 : BitVec 3) (op : BitVec 7) (rs1 rs2 : Reg) (off : BitVec 13) : fieldRs1 (encodeB f3 op rs1 rs2 off) = rs1 := by
  unfold fieldRs1 encodeB
  refine (extract_append_high ((off.extractLsb' 12 1) ++ (off.extractLsb' 5 6) ++ rs2 ++ rs1 ++ f3 ++ (off.extractLsb' 1 4) ++ (off.extractLsb' 11 1)) op 15 5 (by decide)).trans ?_
  refine (extract_append_high ((off.extractLsb' 12 1) ++ (off.extractLsb' 5 6) ++ rs2 ++ rs1 ++ f3 ++ (off.extractLsb' 1 4)) (off.extractLsb' 11 1) 8 5 (by decide)).trans ?_
  refine (extract_append_high ((off.extractLsb' 12 1) ++ (off.extractLsb' 5 6) ++ rs2 ++ rs1 ++ f3) (off.extractLsb' 1 4) 7 5 (by decide)).trans ?_
  refine (extract_append_high ((off.extractLsb' 12 1) ++ (off.extractLsb' 5 6) ++ rs2 ++ rs1) f3 3 5 (by decide)).trans ?_
  refine (extract_append_low ((off.extractLsb' 12 1) ++ (off.extractLsb' 5 6) ++ rs2) rs1 0 5 (by decide)).trans ?_
  exact extract_whole rs1

theorem encodeB_funct3 (f3 : BitVec 3) (op : BitVec 7) (rs1 rs2 : Reg) (off : BitVec 13) : fieldFunct3 (encodeB f3 op rs1 rs2 off) = f3 := by
  unfold fieldFunct3 encodeB
  refine (extract_append_high ((off.extractLsb' 12 1) ++ (off.extractLsb' 5 6) ++ rs2 ++ rs1 ++ f3 ++ (off.extractLsb' 1 4) ++ (off.extractLsb' 11 1)) op 12 3 (by decide)).trans ?_
  refine (extract_append_high ((off.extractLsb' 12 1) ++ (off.extractLsb' 5 6) ++ rs2 ++ rs1 ++ f3 ++ (off.extractLsb' 1 4)) (off.extractLsb' 11 1) 5 3 (by decide)).trans ?_
  refine (extract_append_high ((off.extractLsb' 12 1) ++ (off.extractLsb' 5 6) ++ rs2 ++ rs1 ++ f3) (off.extractLsb' 1 4) 4 3 (by decide)).trans ?_
  refine (extract_append_low ((off.extractLsb' 12 1) ++ (off.extractLsb' 5 6) ++ rs2 ++ rs1) f3 0 3 (by decide)).trans ?_
  exact extract_whole f3

theorem encodeB_opcode (f3 : BitVec 3) (op : BitVec 7) (rs1 rs2 : Reg) (off : BitVec 13) : fieldOpcode (encodeB f3 op rs1 rs2 off) = op := by
  unfold fieldOpcode encodeB
  refine (extract_append_low ((off.extractLsb' 12 1) ++ (off.extractLsb' 5 6) ++ rs2 ++ rs1 ++ f3 ++ (off.extractLsb' 1 4) ++ (off.extractLsb' 11 1)) op 0 7 (by decide)).trans ?_
  exact extract_whole op

theorem encodeB_slice_31 (f3 : BitVec 3) (op : BitVec 7) (rs1 rs2 : Reg) (off : BitVec 13) : (encodeB f3 op rs1 rs2 off).extractLsb' 31 1 = off.extractLsb' 12 1 := by
  unfold encodeB
  refine (extract_append_high ((off.extractLsb' 12 1) ++ (off.extractLsb' 5 6) ++ rs2 ++ rs1 ++ f3 ++ (off.extractLsb' 1 4) ++ (off.extractLsb' 11 1)) op 31 1 (by decide)).trans ?_
  refine (extract_append_high ((off.extractLsb' 12 1) ++ (off.extractLsb' 5 6) ++ rs2 ++ rs1 ++ f3 ++ (off.extractLsb' 1 4)) (off.extractLsb' 11 1) 24 1 (by decide)).trans ?_
  refine (extract_append_high ((off.extractLsb' 12 1) ++ (off.extractLsb' 5 6) ++ rs2 ++ rs1 ++ f3) (off.extractLsb' 1 4) 23 1 (by decide)).trans ?_
  refine (extract_append_high ((off.extractLsb' 12 1) ++ (off.extractLsb' 5 6) ++ rs2 ++ rs1) f3 19 1 (by decide)).trans ?_
  refine (extract_append_high ((off.extractLsb' 12 1) ++ (off.extractLsb' 5 6) ++ rs2) rs1 16 1 (by decide)).trans ?_
  refine (extract_append_high ((off.extractLsb' 12 1) ++ (off.extractLsb' 5 6)) rs2 11 1 (by decide)).trans ?_
  refine (extract_append_high ((off.extractLsb' 12 1)) (off.extractLsb' 5 6) 6 1 (by decide)).trans ?_
  exact extract_whole (off.extractLsb' 12 1)

theorem encodeB_slice_25 (f3 : BitVec 3) (op : BitVec 7) (rs1 rs2 : Reg) (off : BitVec 13) : (encodeB f3 op rs1 rs2 off).extractLsb' 25 6 = off.extractLsb' 5 6 := by
  unfold encodeB
  refine (extract_append_high ((off.extractLsb' 12 1) ++ (off.extractLsb' 5 6) ++ rs2 ++ rs1 ++ f3 ++ (off.extractLsb' 1 4) ++ (off.extractLsb' 11 1)) op 25 6 (by decide)).trans ?_
  refine (extract_append_high ((off.extractLsb' 12 1) ++ (off.extractLsb' 5 6) ++ rs2 ++ rs1 ++ f3 ++ (off.extractLsb' 1 4)) (off.extractLsb' 11 1) 18 6 (by decide)).trans ?_
  refine (extract_append_high ((off.extractLsb' 12 1) ++ (off.extractLsb' 5 6) ++ rs2 ++ rs1 ++ f3) (off.extractLsb' 1 4) 17 6 (by decide)).trans ?_
  refine (extract_append_high ((off.extractLsb' 12 1) ++ (off.extractLsb' 5 6) ++ rs2 ++ rs1) f3 13 6 (by decide)).trans ?_
  refine (extract_append_high ((off.extractLsb' 12 1) ++ (off.extractLsb' 5 6) ++ rs2) rs1 10 6 (by decide)).trans ?_
  refine (extract_append_high ((off.extractLsb' 12 1) ++ (off.extractLsb' 5 6)) rs2 5 6 (by decide)).trans ?_
  refine (extract_append_low ((off.extractLsb' 12 1)) (off.extractLsb' 5 6) 0 6 (by decide)).trans ?_
  exact extract_whole (off.extractLsb' 5 6)

theorem encodeB_slice_8 (f3 : BitVec 3) (op : BitVec 7) (rs1 rs2 : Reg) (off : BitVec 13) : (encodeB f3 op rs1 rs2 off).extractLsb' 8 4 = off.extractLsb' 1 4 := by
  unfold encodeB
  refine (extract_append_high ((off.extractLsb' 12 1) ++ (off.extractLsb' 5 6) ++ rs2 ++ rs1 ++ f3 ++ (off.extractLsb' 1 4) ++ (off.extractLsb' 11 1)) op 8 4 (by decide)).trans ?_
  refine (extract_append_high ((off.extractLsb' 12 1) ++ (off.extractLsb' 5 6) ++ rs2 ++ rs1 ++ f3 ++ (off.extractLsb' 1 4)) (off.extractLsb' 11 1) 1 4 (by decide)).trans ?_
  refine (extract_append_low ((off.extractLsb' 12 1) ++ (off.extractLsb' 5 6) ++ rs2 ++ rs1 ++ f3) (off.extractLsb' 1 4) 0 4 (by decide)).trans ?_
  exact extract_whole (off.extractLsb' 1 4)

theorem encodeB_slice_7 (f3 : BitVec 3) (op : BitVec 7) (rs1 rs2 : Reg) (off : BitVec 13) : (encodeB f3 op rs1 rs2 off).extractLsb' 7 1 = off.extractLsb' 11 1 := by
  unfold encodeB
  refine (extract_append_high ((off.extractLsb' 12 1) ++ (off.extractLsb' 5 6) ++ rs2 ++ rs1 ++ f3 ++ (off.extractLsb' 1 4) ++ (off.extractLsb' 11 1)) op 7 1 (by decide)).trans ?_
  refine (extract_append_low ((off.extractLsb' 12 1) ++ (off.extractLsb' 5 6) ++ rs2 ++ rs1 ++ f3 ++ (off.extractLsb' 1 4)) (off.extractLsb' 11 1) 0 1 (by decide)).trans ?_
  exact extract_whole (off.extractLsb' 11 1)

/-! ## Format U -/

theorem encodeU_imm (op : BitVec 7) (rd : Reg) (imm20 : BitVec 20) : fieldImmU (encodeU op rd imm20) = imm20 := by
  unfold fieldImmU encodeU
  refine (extract_append_high (imm20 ++ rd) op 12 20 (by decide)).trans ?_
  refine (extract_append_high (imm20) rd 5 20 (by decide)).trans ?_
  exact extract_whole imm20

theorem encodeU_rd (op : BitVec 7) (rd : Reg) (imm20 : BitVec 20) : fieldRd (encodeU op rd imm20) = rd := by
  unfold fieldRd encodeU
  refine (extract_append_high (imm20 ++ rd) op 7 5 (by decide)).trans ?_
  refine (extract_append_low (imm20) rd 0 5 (by decide)).trans ?_
  exact extract_whole rd

theorem encodeU_opcode (op : BitVec 7) (rd : Reg) (imm20 : BitVec 20) : fieldOpcode (encodeU op rd imm20) = op := by
  unfold fieldOpcode encodeU
  refine (extract_append_low (imm20 ++ rd) op 0 7 (by decide)).trans ?_
  exact extract_whole op

/-! ## Format J -/

theorem encodeJ_rd (op : BitVec 7) (rd : Reg) (off : BitVec 21) : fieldRd (encodeJ op rd off) = rd := by
  unfold fieldRd encodeJ
  refine (extract_append_high ((off.extractLsb' 20 1) ++ (off.extractLsb' 1 10) ++ (off.extractLsb' 11 1) ++ (off.extractLsb' 12 8) ++ rd) op 7 5 (by decide)).trans ?_
  refine (extract_append_low ((off.extractLsb' 20 1) ++ (off.extractLsb' 1 10) ++ (off.extractLsb' 11 1) ++ (off.extractLsb' 12 8)) rd 0 5 (by decide)).trans ?_
  exact extract_whole rd

theorem encodeJ_opcode (op : BitVec 7) (rd : Reg) (off : BitVec 21) : fieldOpcode (encodeJ op rd off) = op := by
  unfold fieldOpcode encodeJ
  refine (extract_append_low ((off.extractLsb' 20 1) ++ (off.extractLsb' 1 10) ++ (off.extractLsb' 11 1) ++ (off.extractLsb' 12 8) ++ rd) op 0 7 (by decide)).trans ?_
  exact extract_whole op

theorem encodeJ_slice_31 (op : BitVec 7) (rd : Reg) (off : BitVec 21) : (encodeJ op rd off).extractLsb' 31 1 = off.extractLsb' 20 1 := by
  unfold encodeJ
  refine (extract_append_high ((off.extractLsb' 20 1) ++ (off.extractLsb' 1 10) ++ (off.extractLsb' 11 1) ++ (off.extractLsb' 12 8) ++ rd) op 31 1 (by decide)).trans ?_
  refine (extract_append_high ((off.extractLsb' 20 1) ++ (off.extractLsb' 1 10) ++ (off.extractLsb' 11 1) ++ (off.extractLsb' 12 8)) rd 24 1 (by decide)).trans ?_
  refine (extract_append_high ((off.extractLsb' 20 1) ++ (off.extractLsb' 1 10) ++ (off.extractLsb' 11 1)) (off.extractLsb' 12 8) 19 1 (by decide)).trans ?_
  refine (extract_append_high ((off.extractLsb' 20 1) ++ (off.extractLsb' 1 10)) (off.extractLsb' 11 1) 11 1 (by decide)).trans ?_
  refine (extract_append_high ((off.extractLsb' 20 1)) (off.extractLsb' 1 10) 10 1 (by decide)).trans ?_
  exact extract_whole (off.extractLsb' 20 1)

theorem encodeJ_slice_21 (op : BitVec 7) (rd : Reg) (off : BitVec 21) : (encodeJ op rd off).extractLsb' 21 10 = off.extractLsb' 1 10 := by
  unfold encodeJ
  refine (extract_append_high ((off.extractLsb' 20 1) ++ (off.extractLsb' 1 10) ++ (off.extractLsb' 11 1) ++ (off.extractLsb' 12 8) ++ rd) op 21 10 (by decide)).trans ?_
  refine (extract_append_high ((off.extractLsb' 20 1) ++ (off.extractLsb' 1 10) ++ (off.extractLsb' 11 1) ++ (off.extractLsb' 12 8)) rd 14 10 (by decide)).trans ?_
  refine (extract_append_high ((off.extractLsb' 20 1) ++ (off.extractLsb' 1 10) ++ (off.extractLsb' 11 1)) (off.extractLsb' 12 8) 9 10 (by decide)).trans ?_
  refine (extract_append_high ((off.extractLsb' 20 1) ++ (off.extractLsb' 1 10)) (off.extractLsb' 11 1) 1 10 (by decide)).trans ?_
  refine (extract_append_low ((off.extractLsb' 20 1)) (off.extractLsb' 1 10) 0 10 (by decide)).trans ?_
  exact extract_whole (off.extractLsb' 1 10)

theorem encodeJ_slice_20 (op : BitVec 7) (rd : Reg) (off : BitVec 21) : (encodeJ op rd off).extractLsb' 20 1 = off.extractLsb' 11 1 := by
  unfold encodeJ
  refine (extract_append_high ((off.extractLsb' 20 1) ++ (off.extractLsb' 1 10) ++ (off.extractLsb' 11 1) ++ (off.extractLsb' 12 8) ++ rd) op 20 1 (by decide)).trans ?_
  refine (extract_append_high ((off.extractLsb' 20 1) ++ (off.extractLsb' 1 10) ++ (off.extractLsb' 11 1) ++ (off.extractLsb' 12 8)) rd 13 1 (by decide)).trans ?_
  refine (extract_append_high ((off.extractLsb' 20 1) ++ (off.extractLsb' 1 10) ++ (off.extractLsb' 11 1)) (off.extractLsb' 12 8) 8 1 (by decide)).trans ?_
  refine (extract_append_low ((off.extractLsb' 20 1) ++ (off.extractLsb' 1 10)) (off.extractLsb' 11 1) 0 1 (by decide)).trans ?_
  exact extract_whole (off.extractLsb' 11 1)

theorem encodeJ_slice_12 (op : BitVec 7) (rd : Reg) (off : BitVec 21) : (encodeJ op rd off).extractLsb' 12 8 = off.extractLsb' 12 8 := by
  unfold encodeJ
  refine (extract_append_high ((off.extractLsb' 20 1) ++ (off.extractLsb' 1 10) ++ (off.extractLsb' 11 1) ++ (off.extractLsb' 12 8) ++ rd) op 12 8 (by decide)).trans ?_
  refine (extract_append_high ((off.extractLsb' 20 1) ++ (off.extractLsb' 1 10) ++ (off.extractLsb' 11 1) ++ (off.extractLsb' 12 8)) rd 5 8 (by decide)).trans ?_
  refine (extract_append_low ((off.extractLsb' 20 1) ++ (off.extractLsb' 1 10) ++ (off.extractLsb' 11 1)) (off.extractLsb' 12 8) 0 8 (by decide)).trans ?_
  exact extract_whole (off.extractLsb' 12 8)

/-! ## The masks of the opcode table, in terms of the fields -/

theorem mask_funct7 (w : Word) :
    w &&& 0xFE00707F#32 = fieldFunct7 w ++ 0#10 ++ fieldFunct3 w ++ 0#5 ++ fieldOpcode w := by
  apply BitVec.eq_of_getLsbD_eq
  intro i hi
  simp only [fieldFunct7, fieldFunct3, fieldOpcode, BitVec.getLsbD_and, BitVec.getLsbD_append, BitVec.getLsbD_extractLsb']
  interval_cases i <;> simp

theorem mask_funct3 (w : Word) : w &&& 0x0000707F#32 = 0#17 ++ fieldFunct3 w ++ 0#5 ++ fieldOpcode w := by
  apply BitVec.eq_of_getLsbD_eq
  intro i hi
  simp only [fieldFunct3, fieldOpcode, BitVec.getLsbD_and, BitVec.getLsbD_append, BitVec.getLsbD_extractLsb']
  interval_cases i <;> simp

theorem mask_opcode (w : Word) : w &&& 0x0000007F#32 = 0#25 ++ fieldOpcode w := by
  apply BitVec.eq_of_getLsbD_eq
  intro i hi
  simp only [fieldOpcode, BitVec.getLsbD_and, BitVec.getLsbD_append, BitVec.getLsbD_extractLsb']
  interval_cases i <;> simp

theorem mask_word (w : Word) : w &&& 0xFFFFFFFF#32 = w := by
  apply BitVec.eq_of_getLsbD_eq
  intro i hi
  simp only [BitVec.getLsbD_and]
  interval_cases i <;> simp

/-! ## The immediates put together again -/

/-- Two slices that meet are one slice. -/
theorem extract_join {w : Nat} (v : BitVec w) (s m n : Nat) :
    v.extractLsb' (s + m) n ++ v.extractLsb' s m = v.extractLsb' s (n + m) := by
  apply BitVec.eq_of_getLsbD_eq
  intro i hi
  simp only [BitVec.getLsbD_append, BitVec.getLsbD_extractLsb']
  by_cases h : i < m
  · simp [h, hi]
  · have h1 : i - m < n := by omega
    have h2 : s + m + (i - m) = s + i := by omega
    simp [h, hi, h1, h2]

/-- Bit 0 of an even offset. -/
theorem extract_bit_zero {w : Nat} (v : BitVec w) (h : v.getLsbD 0 = false) : v.extractLsb' 0 1 = 0#1 := by
  ext i hi
  have : i = 0 := by omega
  subst this
  simp [h]

theorem encodeS_imm (f3 : BitVec 3) (op : BitVec 7) (rs1 rs2 : Reg) (imm : BitVec 12) :
    fieldImmS (encodeS f3 op rs1 rs2 imm) = imm := by
  unfold fieldImmS
  rw [encodeS_slice_25, encodeS_slice_7]
  exact (extract_join imm 0 5 7).trans (extract_whole imm)

theorem encodeB_imm (f3 : BitVec 3) (op : BitVec 7) (rs1 rs2 : Reg) (off : BitVec 13) (h : off.getLsbD 0 = false) :
    fieldImmB (encodeB f3 op rs1 rs2 off) = off := by
  unfold fieldImmB
  rw [encodeB_slice_31, encodeB_slice_7, encodeB_slice_25, encodeB_slice_8, ← extract_bit_zero off h]
  have e1 := extract_join off 11 1 1
  have e2 := extract_join off 5 6 2
  have e3 := extract_join off 1 4 8
  have e4 := extract_join off 0 1 12
  simp only [Nat.reduceAdd] at e1 e2 e3 e4
  rw [e1, e2, e3, e4]
  exact extract_whole off

theorem encodeJ_imm (op : BitVec 7) (rd : Reg) (off : BitVec 21) (h : off.getLsbD 0 = false) :
    fieldImmJ (encodeJ op rd off) = off := by
  unfold fieldImmJ
  rw [encodeJ_slice_31, encodeJ_slice_12, encodeJ_slice_20, encodeJ_slice_21, ← extract_bit_zero off h]
  have e1 := extract_join off 12 8 1
  have e2 := extract_join off 11 1 9
  have e3 := extract_join off 1 10 10
  have e4 := extract_join off 0 1 20
  simp only [Nat.reduceAdd] at e1 e2 e3 e4
  rw [e1, e2, e3, e4]
  exact extract_whole off

end Sys2Proof
end

