-- ==== Sys2Proof/Laws/Memory.lean ====
section
/-! SUPPORT. Memory: every operation keeps the canonical form, and what a byte reads as after a write. -/

namespace Sys2Proof.Machine

/-! ## The canonical form -/

theorem Memory.wfAbove_mono {m : Memory} {lo : Nat} (h : Memory.wfAbove (some lo) m = true) :
    ∀ k, k ≤ lo → Memory.wfAbove (some k) m = true := by
  intro k hk
  cases m with
  | nil => rfl
  | cons c m =>
    simp only [Memory.wfAbove, Bool.and_eq_true, decide_eq_true_eq] at h ⊢
    exact ⟨⟨by omega, h.1.2⟩, h.2⟩

theorem Memory.wf_of_wfAbove {m : Memory} {lo : Nat} (h : Memory.wfAbove (some lo) m = true) : m.wf = true := by
  cases m with
  | nil => rfl
  | cons c m =>
    simp only [Memory.wf, Memory.wfAbove, Bool.and_eq_true, Bool.true_and] at h ⊢
    exact ⟨h.1.2, h.2⟩

/-- A byte at an address below every listed one is not listed. -/
theorem Memory.byte_of_wfAbove {m : Memory} {lo : Nat} (h : Memory.wfAbove (some lo) m = true) :
    ∀ a, a ≤ lo → m.byte a = 0#8 := by
  induction m generalizing lo with
  | nil => intros; rfl
  | cons c m ih =>
    intro a ha
    simp only [Memory.wfAbove, Bool.and_eq_true, decide_eq_true_eq] at h
    have hne : a ≠ c.1 := by omega
    simp only [Memory.byte, if_neg hne]
    exact ih h.2 a (by omega)

theorem Memory.wfAbove_put {m : Memory} {lo : Option Nat} (h : Memory.wfAbove lo m = true) (a : Nat) (b : Byte)
    (ha : ∀ l, lo = some l → l < a) : Memory.wfAbove lo (m.put a b) = true := by
  induction m generalizing lo with
  | nil =>
    unfold Memory.put
    split
    · exact h
    · cases lo <;> simp_all [Memory.wfAbove]
  | cons c m ih =>
    simp only [Memory.wfAbove, Bool.and_eq_true, decide_eq_true_eq] at h
    have htail : Memory.wfAbove (some a) m = true → ∀ l, lo = some l → l < a := fun _ => ha
    unfold Memory.put
    split
    · split
      · simpa only [Memory.wfAbove, Bool.and_eq_true, decide_eq_true_eq] using h
      · cases lo <;> simp_all [Memory.wfAbove]
    · split
      · next h1 h2 =>
        subst h2
        split
        · cases lo with
          | none => exact Memory.wf_of_wfAbove h.2
          | some l =>
            have := ha l rfl
            exact Memory.wfAbove_mono h.2 l (by omega)
        · cases lo <;> simp_all [Memory.wfAbove]
      · next h1 h2 =>
        simp only [Memory.wfAbove, Bool.and_eq_true, decide_eq_true_eq]
        refine ⟨⟨h.1.1, h.1.2⟩, ih h.2 ?_⟩
        intro l hl
        cases hl
        omega

/-- Writing a byte keeps the canonical form. -/
theorem Memory.wf_put {m : Memory} (h : m.wf = true) (a : Nat) (b : Byte) : (m.put a b).wf = true :=
  Memory.wfAbove_put h a b (by simp)

/-- Writing a value of any width keeps the canonical form. -/
theorem Memory.wf_writeWidth {m : Memory} (h : m.wf = true) (a : Nat) (v : Word) (n : Width) :
    (m.writeWidth a v n).wf = true := by
  cases n
  · exact h
  · exact Memory.wf_put h _ _
  · exact Memory.wf_put (Memory.wf_put h _ _) _ _
  · exact Memory.wf_put (Memory.wf_put (Memory.wf_put (Memory.wf_put h _ _) _ _) _ _) _ _

theorem Memory.within_iff {m : Memory} {size : Nat} : m.within size = true ↔ ∀ c ∈ m, c.1 < size := by
  simp only [Memory.within, List.all_eq_true, decide_eq_true_eq]

/-- A listed byte after a write was listed before, or is the written one. -/
theorem Memory.mem_put {m : Memory} {a : Nat} {b : Byte} {c : Host.Cell} (h : c ∈ m.put a b) : c ∈ m ∨ c = (a, b) := by
  induction m with
  | nil => unfold Memory.put at h; split at h <;> simp_all
  | cons d m ih =>
    unfold Memory.put at h
    split at h
    · split at h
      · exact .inl h
      · rcases List.mem_cons.1 h with h | h
        · exact .inr h
        · exact .inl h
    · split at h
      · split at h
        · exact .inl (List.mem_cons_of_mem _ h)
        · rcases List.mem_cons.1 h with h | h
          · exact .inr h
          · exact .inl (List.mem_cons_of_mem _ h)
      · rcases List.mem_cons.1 h with h | h
        · exact .inl (h ▸ List.mem_cons_self)
        · exact (ih h).imp (List.mem_cons_of_mem _) id

theorem Memory.within_put {m : Memory} {size : Nat} (h : m.within size = true) (a : Nat) (b : Byte) (ha : a < size) :
    (m.put a b).within size = true := by
  rw [within_iff] at h ⊢
  intro c hc
  rcases mem_put hc with hc | rfl
  · exact h c hc
  · exact ha

/-- Writing in bounds lists no byte out of bounds. -/
theorem Memory.within_writeWidth {m : Memory} {size : Nat} (h : m.within size = true) (a : Nat) (v : Word) (n : Width)
    (ha : a + n.bytes ≤ size) : (m.writeWidth a v n).within size = true := by
  cases n <;> simp only [Width.bytes] at ha <;> simp only [Memory.writeWidth]
  · exact h
  · exact within_put h _ _ (by omega)
  · exact within_put (within_put h _ _ (by omega)) _ _ (by omega)
  · exact within_put (within_put (within_put (within_put h _ _ (by omega)) _ _ (by omega)) _ _ (by omega)) _ _ (by omega)

/-! ## Reading after writing -/

theorem Memory.byte_put_aux {m : Memory} {lo : Option Nat} (h : Memory.wfAbove lo m = true) (a : Nat) (b : Byte)
    (q : Nat) : (m.put a b).byte q = if q = a then b else m.byte q := by
  induction m generalizing lo with
  | nil =>
    unfold Memory.put
    split
    · next hb => subst hb; simp [Memory.byte]
    · simp [Memory.byte]
  | cons c m ih =>
    simp only [Memory.wfAbove, Bool.and_eq_true, decide_eq_true_eq] at h
    have hbelow := Memory.byte_of_wfAbove h.2
    unfold Memory.put
    split
    · next hlt =>
      split
      · next hb =>
        subst hb
        by_cases hq : q = a
        · subst hq
          have hne : q ≠ c.1 := by omega
          simp [Memory.byte, hne, hbelow q (by omega)]
        · simp [hq]
      · simp [Memory.byte]
    · split
      · next hlt heq =>
        subst heq
        split
        · next hb =>
          subst hb
          by_cases hq : q = c.1
          · subst hq
            simp [hbelow c.1 (by omega)]
          · simp [Memory.byte, hq]
        · by_cases hq : q = c.1 <;> simp [Memory.byte, hq]
      · next hlt hne =>
        by_cases hq : q = c.1
        · have : q ≠ a := by omega
          simp [Memory.byte, hq, Ne.symm hne]
        · simp only [Memory.byte, if_neg hq]
          exact ih h.2

/-- The byte at `q` after a byte write: the written byte at its address, every other byte as before. -/
theorem Memory.byte_put {m : Memory} (h : m.wf = true) (a : Nat) (b : Byte) (q : Nat) :
    (m.put a b).byte q = if q = a then b else m.byte q := Memory.byte_put_aux h a b q

/-- A write of any width leaves every byte outside it as it was. -/
theorem Memory.byte_writeWidth_outside {m : Memory} (h : m.wf = true) (a : Nat) (v : Word) (n : Width) (q : Nat)
    (hq : q < a ∨ a + n.bytes ≤ q) : (m.writeWidth a v n).byte q = m.byte q := by
  have hw1 := Memory.wf_put h a (v.extractLsb' 0 8)
  have hw2 := Memory.wf_put hw1 (a + 1) (v.extractLsb' 8 8)
  have hw3 := Memory.wf_put hw2 (a + 2) (v.extractLsb' 16 8)
  cases n <;> simp only [Width.bytes] at hq <;> simp only [Memory.writeWidth]
  · rw [byte_put h, if_neg (by omega)]
  · rw [byte_put hw1, byte_put h, if_neg (by omega), if_neg (by omega)]
  · rw [byte_put hw3, byte_put hw2, byte_put hw1, byte_put h, if_neg (by omega), if_neg (by omega), if_neg (by omega),
      if_neg (by omega)]

/-- A read depends on the bytes it covers alone. -/
theorem Memory.readWidth_congr {m m' : Memory} (a : Nat) (n : Width)
    (h : ∀ q, a ≤ q → q < a + n.bytes → m'.byte q = m.byte q) : m'.readWidth a n = m.readWidth a n := by
  cases n <;> simp only [Width.bytes] at h <;> simp only [Memory.readWidth]
  · rw [h a (by omega) (by omega)]
  · rw [h a (by omega) (by omega), h (a + 1) (by omega) (by omega)]
  · rw [h a (by omega) (by omega), h (a + 1) (by omega) (by omega), h (a + 2) (by omega) (by omega),
      h (a + 3) (by omega) (by omega)]

/-! ## The checked accesses -/

/-- An access passes its check exactly when it is aligned and in bounds (20_memory.md R106, R107). -/
theorem checkAccess_none_iff {size : Nat} {k : AccessKind} {a : Word} {n : Nat} :
    checkAccess size k a n = none ↔ a.toNat % n = 0 ∧ a.toNat + n ≤ size := by
  unfold checkAccess
  by_cases h : a.toNat % n = 0
  · by_cases h2 : size < a.toNat + n
    · simp [h, h2]
    · simp [h, h2]; omega
  · simp [h]

/-- Everything a checked read can answer. -/
theorem memRead_cases (size : Nat) (m : Memory) (k : AccessKind) (a : Word) (n : Width) :
    (∃ f, checkAccess size k a n.bytes = some f ∧ memRead size m k a n = .error f) ∨
    (checkAccess size k a n.bytes = none ∧ memRead size m k a n = .ok (m.readWidth a.toNat n)) := by
  unfold memRead
  cases checkAccess size k a n.bytes <;> simp

/-- Everything a checked write can answer. -/
theorem memWrite_cases (size : Nat) (m : Memory) (a : Word) (n : Width) (v : Word) :
    (∃ f, checkAccess size .store a n.bytes = some f ∧ memWrite size m a n v = .error f) ∨
    (checkAccess size .store a n.bytes = none ∧ memWrite size m a n v = .ok (m.writeWidth a.toNat v n)) := by
  unfold memWrite
  cases checkAccess size .store a n.bytes <;> simp

end Sys2Proof.Machine
end

