-- ==== Sys2Proof/Laws/PerInstr.lean ====
section
/-! SUPPORT. Facts stated of every instruction, one lemma per constructor. -/

namespace Sys2Proof.Laws

/-- The word of an instruction belongs to the instruction's own row of the opcode table (30_encoding.md R150). -/
def EncodeMatchesRow.Statement (i : Instr) : Prop := matchesRow i.mnemonic (encode i) = true

/-! ## The three mask shapes -/

theorem matches_encodeR (m : Mnemonic) (f7 : BitVec 7) (f3 : BitVec 3) (op : BitVec 7) (rd rs1 rs2 : Reg)
    (hm : maskOf m = 0xFE00707F#32) (h : f7 ++ 0#10 ++ f3 ++ 0#5 ++ op = matchOf m) :
    matchesRow m (encodeR f7 f3 op rd rs1 rs2) = true := by
  apply decide_eq_true
  rw [hm, mask_funct7, encodeR_funct7, encodeR_funct3, encodeR_opcode]
  exact h

theorem matches_encodeI (m : Mnemonic) (f3 : BitVec 3) (op : BitVec 7) (rd rs1 : Reg) (imm : BitVec 12)
    (hm : maskOf m = 0x0000707F#32) (h : 0#17 ++ f3 ++ 0#5 ++ op = matchOf m) :
    matchesRow m (encodeI f3 op rd rs1 imm) = true := by
  apply decide_eq_true
  rw [hm, mask_funct3, encodeI_funct3, encodeI_opcode]
  exact h

theorem matches_encodeS (m : Mnemonic) (f3 : BitVec 3) (op : BitVec 7) (rs1 rs2 : Reg) (imm : BitVec 12)
    (hm : maskOf m = 0x0000707F#32) (h : 0#17 ++ f3 ++ 0#5 ++ op = matchOf m) :
    matchesRow m (encodeS f3 op rs1 rs2 imm) = true := by
  apply decide_eq_true
  rw [hm, mask_funct3, encodeS_funct3, encodeS_opcode]
  exact h

theorem matches_encodeB (m : Mnemonic) (f3 : BitVec 3) (op : BitVec 7) (rs1 rs2 : Reg) (off : BitVec 13)
    (hm : maskOf m = 0x0000707F#32) (h : 0#17 ++ f3 ++ 0#5 ++ op = matchOf m) :
    matchesRow m (encodeB f3 op rs1 rs2 off) = true := by
  apply decide_eq_true
  rw [hm, mask_funct3, encodeB_funct3, encodeB_opcode]
  exact h

theorem matches_encodeU (m : Mnemonic) (op : BitVec 7) (rd : Reg) (imm20 : BitVec 20)
    (hm : maskOf m = 0x0000007F#32) (h : 0#25 ++ op = matchOf m) : matchesRow m (encodeU op rd imm20) = true := by
  apply decide_eq_true
  rw [hm, mask_opcode, encodeU_opcode]
  exact h

theorem matches_encodeJ (m : Mnemonic) (op : BitVec 7) (rd : Reg) (off : BitVec 21)
    (hm : maskOf m = 0x0000007F#32) (h : 0#25 ++ op = matchOf m) : matchesRow m (encodeJ op rd off) = true := by
  apply decide_eq_true
  rw [hm, mask_opcode, encodeJ_opcode]
  exact h

/-! ## One lemma per instruction -/

theorem EncodeMatchesRow.add (rd rs1 rs2 : Reg) : EncodeMatchesRow.Statement (.add rd rs1 rs2) :=
  matches_encodeR _ _ _ _ _ _ _ rfl rfl
theorem EncodeMatchesRow.sub (rd rs1 rs2 : Reg) : EncodeMatchesRow.Statement (.sub rd rs1 rs2) :=
  matches_encodeR _ _ _ _ _ _ _ rfl rfl
theorem EncodeMatchesRow.sll (rd rs1 rs2 : Reg) : EncodeMatchesRow.Statement (.sll rd rs1 rs2) :=
  matches_encodeR _ _ _ _ _ _ _ rfl rfl
theorem EncodeMatchesRow.slt (rd rs1 rs2 : Reg) : EncodeMatchesRow.Statement (.slt rd rs1 rs2) :=
  matches_encodeR _ _ _ _ _ _ _ rfl rfl
theorem EncodeMatchesRow.sltu (rd rs1 rs2 : Reg) : EncodeMatchesRow.Statement (.sltu rd rs1 rs2) :=
  matches_encodeR _ _ _ _ _ _ _ rfl rfl
theorem EncodeMatchesRow.xor (rd rs1 rs2 : Reg) : EncodeMatchesRow.Statement (.xor rd rs1 rs2) :=
  matches_encodeR _ _ _ _ _ _ _ rfl rfl
theorem EncodeMatchesRow.srl (rd rs1 rs2 : Reg) : EncodeMatchesRow.Statement (.srl rd rs1 rs2) :=
  matches_encodeR _ _ _ _ _ _ _ rfl rfl
theorem EncodeMatchesRow.sra (rd rs1 rs2 : Reg) : EncodeMatchesRow.Statement (.sra rd rs1 rs2) :=
  matches_encodeR _ _ _ _ _ _ _ rfl rfl
theorem EncodeMatchesRow.or (rd rs1 rs2 : Reg) : EncodeMatchesRow.Statement (.or rd rs1 rs2) :=
  matches_encodeR _ _ _ _ _ _ _ rfl rfl
theorem EncodeMatchesRow.and (rd rs1 rs2 : Reg) : EncodeMatchesRow.Statement (.and rd rs1 rs2) :=
  matches_encodeR _ _ _ _ _ _ _ rfl rfl
theorem EncodeMatchesRow.addi (rd rs1 : Reg) (imm : BitVec 12) : EncodeMatchesRow.Statement (.addi rd rs1 imm) :=
  matches_encodeI _ _ _ _ _ _ rfl rfl
theorem EncodeMatchesRow.slti (rd rs1 : Reg) (imm : BitVec 12) : EncodeMatchesRow.Statement (.slti rd rs1 imm) :=
  matches_encodeI _ _ _ _ _ _ rfl rfl
theorem EncodeMatchesRow.sltiu (rd rs1 : Reg) (imm : BitVec 12) : EncodeMatchesRow.Statement (.sltiu rd rs1 imm) :=
  matches_encodeI _ _ _ _ _ _ rfl rfl
theorem EncodeMatchesRow.xori (rd rs1 : Reg) (imm : BitVec 12) : EncodeMatchesRow.Statement (.xori rd rs1 imm) :=
  matches_encodeI _ _ _ _ _ _ rfl rfl
theorem EncodeMatchesRow.ori (rd rs1 : Reg) (imm : BitVec 12) : EncodeMatchesRow.Statement (.ori rd rs1 imm) :=
  matches_encodeI _ _ _ _ _ _ rfl rfl
theorem EncodeMatchesRow.andi (rd rs1 : Reg) (imm : BitVec 12) : EncodeMatchesRow.Statement (.andi rd rs1 imm) :=
  matches_encodeI _ _ _ _ _ _ rfl rfl
theorem EncodeMatchesRow.slli (rd rs1 : Reg) (shamt : BitVec 5) : EncodeMatchesRow.Statement (.slli rd rs1 shamt) :=
  matches_encodeR _ _ _ _ _ _ _ rfl rfl
theorem EncodeMatchesRow.srli (rd rs1 : Reg) (shamt : BitVec 5) : EncodeMatchesRow.Statement (.srli rd rs1 shamt) :=
  matches_encodeR _ _ _ _ _ _ _ rfl rfl
theorem EncodeMatchesRow.srai (rd rs1 : Reg) (shamt : BitVec 5) : EncodeMatchesRow.Statement (.srai rd rs1 shamt) :=
  matches_encodeR _ _ _ _ _ _ _ rfl rfl
theorem EncodeMatchesRow.lui (rd : Reg) (imm20 : BitVec 20) : EncodeMatchesRow.Statement (.lui rd imm20) :=
  matches_encodeU _ _ _ _ rfl rfl
theorem EncodeMatchesRow.auipc (rd : Reg) (imm20 : BitVec 20) : EncodeMatchesRow.Statement (.auipc rd imm20) :=
  matches_encodeU _ _ _ _ rfl rfl
theorem EncodeMatchesRow.lb (rd rs1 : Reg) (imm : BitVec 12) : EncodeMatchesRow.Statement (.lb rd rs1 imm) :=
  matches_encodeI _ _ _ _ _ _ rfl rfl
theorem EncodeMatchesRow.lh (rd rs1 : Reg) (imm : BitVec 12) : EncodeMatchesRow.Statement (.lh rd rs1 imm) :=
  matches_encodeI _ _ _ _ _ _ rfl rfl
theorem EncodeMatchesRow.lw (rd rs1 : Reg) (imm : BitVec 12) : EncodeMatchesRow.Statement (.lw rd rs1 imm) :=
  matches_encodeI _ _ _ _ _ _ rfl rfl
theorem EncodeMatchesRow.lbu (rd rs1 : Reg) (imm : BitVec 12) : EncodeMatchesRow.Statement (.lbu rd rs1 imm) :=
  matches_encodeI _ _ _ _ _ _ rfl rfl
theorem EncodeMatchesRow.lhu (rd rs1 : Reg) (imm : BitVec 12) : EncodeMatchesRow.Statement (.lhu rd rs1 imm) :=
  matches_encodeI _ _ _ _ _ _ rfl rfl
theorem EncodeMatchesRow.sb (rs1 rs2 : Reg) (imm : BitVec 12) : EncodeMatchesRow.Statement (.sb rs1 rs2 imm) :=
  matches_encodeS _ _ _ _ _ _ rfl rfl
theorem EncodeMatchesRow.sh (rs1 rs2 : Reg) (imm : BitVec 12) : EncodeMatchesRow.Statement (.sh rs1 rs2 imm) :=
  matches_encodeS _ _ _ _ _ _ rfl rfl
theorem EncodeMatchesRow.sw (rs1 rs2 : Reg) (imm : BitVec 12) : EncodeMatchesRow.Statement (.sw rs1 rs2 imm) :=
  matches_encodeS _ _ _ _ _ _ rfl rfl
theorem EncodeMatchesRow.beq (rs1 rs2 : Reg) (off : BitVec 13) : EncodeMatchesRow.Statement (.beq rs1 rs2 off) :=
  matches_encodeB _ _ _ _ _ _ rfl rfl
theorem EncodeMatchesRow.bne (rs1 rs2 : Reg) (off : BitVec 13) : EncodeMatchesRow.Statement (.bne rs1 rs2 off) :=
  matches_encodeB _ _ _ _ _ _ rfl rfl
theorem EncodeMatchesRow.blt (rs1 rs2 : Reg) (off : BitVec 13) : EncodeMatchesRow.Statement (.blt rs1 rs2 off) :=
  matches_encodeB _ _ _ _ _ _ rfl rfl
theorem EncodeMatchesRow.bge (rs1 rs2 : Reg) (off : BitVec 13) : EncodeMatchesRow.Statement (.bge rs1 rs2 off) :=
  matches_encodeB _ _ _ _ _ _ rfl rfl
theorem EncodeMatchesRow.bltu (rs1 rs2 : Reg) (off : BitVec 13) : EncodeMatchesRow.Statement (.bltu rs1 rs2 off) :=
  matches_encodeB _ _ _ _ _ _ rfl rfl
theorem EncodeMatchesRow.bgeu (rs1 rs2 : Reg) (off : BitVec 13) : EncodeMatchesRow.Statement (.bgeu rs1 rs2 off) :=
  matches_encodeB _ _ _ _ _ _ rfl rfl
theorem EncodeMatchesRow.jal (rd : Reg) (off : BitVec 21) : EncodeMatchesRow.Statement (.jal rd off) :=
  matches_encodeJ _ _ _ _ rfl rfl
theorem EncodeMatchesRow.jalr (rd rs1 : Reg) (imm : BitVec 12) : EncodeMatchesRow.Statement (.jalr rd rs1 imm) :=
  matches_encodeI _ _ _ _ _ _ rfl rfl
theorem EncodeMatchesRow.ecall : EncodeMatchesRow.Statement .ecall := rfl
theorem EncodeMatchesRow.bubble : EncodeMatchesRow.Statement .bubble := rfl
theorem EncodeMatchesRow.mul (rd rs1 rs2 : Reg) : EncodeMatchesRow.Statement (.mul rd rs1 rs2) :=
  matches_encodeR _ _ _ _ _ _ _ rfl rfl
theorem EncodeMatchesRow.mulh (rd rs1 rs2 : Reg) : EncodeMatchesRow.Statement (.mulh rd rs1 rs2) :=
  matches_encodeR _ _ _ _ _ _ _ rfl rfl
theorem EncodeMatchesRow.mulhsu (rd rs1 rs2 : Reg) : EncodeMatchesRow.Statement (.mulhsu rd rs1 rs2) :=
  matches_encodeR _ _ _ _ _ _ _ rfl rfl
theorem EncodeMatchesRow.mulhu (rd rs1 rs2 : Reg) : EncodeMatchesRow.Statement (.mulhu rd rs1 rs2) :=
  matches_encodeR _ _ _ _ _ _ _ rfl rfl
theorem EncodeMatchesRow.div (rd rs1 rs2 : Reg) : EncodeMatchesRow.Statement (.div rd rs1 rs2) :=
  matches_encodeR _ _ _ _ _ _ _ rfl rfl
theorem EncodeMatchesRow.divu (rd rs1 rs2 : Reg) : EncodeMatchesRow.Statement (.divu rd rs1 rs2) :=
  matches_encodeR _ _ _ _ _ _ _ rfl rfl
theorem EncodeMatchesRow.rem (rd rs1 rs2 : Reg) : EncodeMatchesRow.Statement (.rem rd rs1 rs2) :=
  matches_encodeR _ _ _ _ _ _ _ rfl rfl
theorem EncodeMatchesRow.remu (rd rs1 rs2 : Reg) : EncodeMatchesRow.Statement (.remu rd rs1 rs2) :=
  matches_encodeR _ _ _ _ _ _ _ rfl rfl

end Sys2Proof.Laws
end

