-- ==== Sys2Proof/Laws/Pipeline.lean ====
section
/-! SUPPORT. What each stage and the whole cycle can answer, said once: later proofs cite these and unfold nothing. -/

namespace Sys2Proof.Machine

/-! ## The meanings -/

/-- Every meaning is the cycle in which the fetch stage delivers the instruction (40_pipeline_engine.md R201). -/
theorem exec_eq_enterPipeline (i : Instr) (s : State) : exec i s = enterPipeline i s := by cases i <;> rfl

/-- A cycle commits exactly when the three stages that can raise do not, and then it leaves this state (R205, R245). -/
theorem cycle_ok_iff {v : InstructionView} {s : State} {r : CycleResult} :
    cycle v s = .ok r ↔
      ∃ e m x term, executeStage s.cfg s.idex (forward1 s).1 (forward2 s).1 = .ok e ∧ memoryStage s = .ok m ∧
        writebackStage s = .ok (x, term) ∧
        r = { state := commit s v e m x term, term := term, probe := m.probe } := by
  unfold cycle
  cases executeStage s.cfg s.idex (forward1 s).1 (forward2 s).1 with
  | error f => simp
  | ok e =>
    cases memoryStage s with
    | error f => simp
    | ok m =>
      cases writebackStage s with
      | error f => simp
      | ok p =>
        obtain ⟨x, term⟩ := p
        cases term <;> simp [eq_comm]

/-- When an instruction that the fetch stage delivers lets the cycle commit, and what the cycle leaves. -/
theorem exec_next_iff {i : Instr} {s t : State} :
    exec i s = .next t ↔
      s.status = .running ∧ i.admitted s.cfg.mExt = true ∧
      ∃ e m x term, executeStage s.cfg s.idex (forward1 s).1 (forward2 s).1 = .ok e ∧ memoryStage s = .ok m ∧
        writebackStage s = .ok (x, term) ∧ t = commit s (viewOf i) e m x term := by
  rw [exec_eq_enterPipeline]
  unfold enterPipeline
  cases hs : s.status with
  | running =>
    by_cases ha : i.admitted s.cfg.mExt = true
    · simp only [ha, if_true, true_and]
      cases hc : cycle (viewOf i) s with
      | error f =>
        simp only [reduceCtorEq, false_iff]
        rintro ⟨e, m, x, term, h1, h2, h3, -⟩
        have := (cycle_ok_iff (v := viewOf i) (s := s) (r := _)).2 ⟨e, m, x, term, h1, h2, h3, rfl⟩
        rw [hc] at this
        cases this
      | ok r =>
        obtain ⟨e, m, x, term, h1, h2, h3, rfl⟩ := cycle_ok_iff.1 hc
        simp only [Host.Outcome.next.injEq]
        constructor
        · rintro rfl
          exact ⟨e, m, x, term, h1, h2, h3, rfl⟩
        · rintro ⟨e', m', x', term', h1', h2', h3', rfl⟩
          rw [h1] at h1'; rw [h2] at h2'; rw [h3] at h3'
          cases h1'; cases h2'; cases h3'
          rfl
    · simp [ha]
  | terminated => simp
  | faulted f => simp

/-- A step that commits is a fetched instruction whose meaning commits. -/
theorem step_next_iff {s t : State} :
    step s = .next t ↔ s.status = .running ∧ ∃ i, fetchInstr s = .ok i ∧ exec i s = .next t := by
  unfold step
  cases s.status with
  | running => cases fetchInstr s <;> simp
  | terminated => simp
  | faulted f => simp

/-! ## The stages -/

/-- Everything an execute stage that does not raise answers (R219). -/
theorem executeStage_ok_iff {c : Config} {d : IdExLatch} {a b : Word} {e : ExMemLatch} :
    executeStage c d a b = .ok e ↔
      ∃ o, executeOp c d a b = .ok o ∧
        e = { inst := d.inst, pc := d.pc, ctl := d.ctl, alu := o.alu, sv := b, taken := o.taken, target := o.target } := by
  unfold executeStage
  cases executeOp c d a b <;> simp [eq_comm]

/-- Everything a memory stage that does not raise answers (R220): a load, a store, or neither. -/
theorem memoryStage_ok_cases {s : State} {m : MemOut} (h : memoryStage s = .ok m) :
    (s.exmem.ctl.memRead = true ∧
      checkAccess s.cfg.memSize .load s.exmem.alu s.exmem.ctl.width.bytes = none ∧ m.mem = s.mem ∧
      probeAccess s s.exmem.alu = .ok (m.cache, m.probe) ∧
      m.latch = memWbOf s.exmem (extendLoad s.exmem.ctl.width s.exmem.ctl.loadSigned
        (s.mem.readWidth s.exmem.alu.toNat s.exmem.ctl.width))) ∨
    (s.exmem.ctl.memRead = false ∧ s.exmem.ctl.memWrite = true ∧
      checkAccess s.cfg.memSize .store s.exmem.alu s.exmem.ctl.width.bytes = none ∧
      m.mem = s.mem.writeWidth s.exmem.alu.toNat s.exmem.sv s.exmem.ctl.width ∧
      probeAccess s s.exmem.alu = .ok (m.cache, m.probe) ∧ m.latch = memWbOf s.exmem 0#32) ∨
    (s.exmem.ctl.memRead = false ∧ s.exmem.ctl.memWrite = false ∧ m.mem = s.mem ∧ m.cache = s.cache ∧
      m.probe = none ∧ m.latch = memWbOf s.exmem 0#32) := by
  unfold memoryStage at h
  split at h
  · next hr =>
    left
    unfold memoryLoad at h
    rcases memRead_cases s.cfg.memSize s.mem .load s.exmem.alu s.exmem.ctl.width with ⟨f, _, hm⟩ | ⟨hc, hm⟩
    · simp [hm] at h
    · simp only [hm] at h
      cases hp : probeAccess s s.exmem.alu with
      | error f => simp [hp] at h
      | ok p =>
        simp only [hp, Except.ok.injEq] at h
        subst h
        exact ⟨hr, hc, rfl, rfl, rfl⟩
  · next hr =>
    have hr : s.exmem.ctl.memRead = false := by simpa using hr
    split at h
    · next hw =>
      right; left
      unfold memoryStore at h
      rcases memWrite_cases s.cfg.memSize s.mem s.exmem.alu s.exmem.ctl.width s.exmem.sv with ⟨f, _, hm⟩ | ⟨hc, hm⟩
      · simp [hm] at h
      · simp only [hm] at h
        cases hp : probeAccess s s.exmem.alu with
        | error f => simp [hp] at h
        | ok p =>
          simp only [hp, Except.ok.injEq] at h
          subst h
          exact ⟨hr, hw, hc, rfl, rfl, rfl⟩
    · next hw =>
      have hw : s.exmem.ctl.memWrite = false := by simpa using hw
      simp only [Except.ok.injEq] at h
      subst h
      exact .inr (.inr ⟨hr, hw, rfl, rfl, rfl, rfl⟩)

/-- Whatever the memory stage does, MEMWB's incoming slot is the instruction of EXMEM with its signals and result. -/
theorem memoryStage_latch {s : State} {m : MemOut} (h : memoryStage s = .ok m) :
    m.latch.inst = s.exmem.inst ∧ m.latch.pc = s.exmem.pc ∧ m.latch.ctl = s.exmem.ctl ∧ m.latch.alu = s.exmem.alu := by
  rcases memoryStage_ok_cases h with ⟨_, _, _, _, hl⟩ | ⟨_, _, _, _, _, hl⟩ | ⟨_, _, _, _, _, hl⟩ <;>
    · rw [hl]; exact ⟨rfl, rfl, rfl, rfl⟩

/-- Everything a writeback stage that does not raise answers (R230, R250). -/
theorem writebackStage_ok_iff {s : State} {x : RegFile} {term : Bool} :
    writebackStage s = .ok (x, term) ↔
      x = writebackRegs s ∧ term = s.memwb.ctl.syscall ∧
      (s.memwb.ctl.syscall = true → (writebackRegs s).read s.cfg.exitArgReg = s.cfg.exitCode) := by
  unfold writebackStage
  cases hsys : s.memwb.ctl.syscall with
  | false => simp [eq_comm]
  | true =>
    by_cases hx : (writebackRegs s).read s.cfg.exitArgReg = s.cfg.exitCode
    · simp [hx, eq_comm]
    · simp [hx]

/-- Everything a fetch that does not raise answers (R210). -/
theorem fetchInstr_ok_iff {s : State} {i : Instr} :
    fetchInstr s = .ok i ↔
      s.pc.toNat % 4 = 0 ∧ s.pc.toNat + 4 ≤ s.cfg.memSize ∧
      decode s.cfg.mExt ((fetchMemory s).readWidth s.pc.toNat .word) = .ok i := by
  unfold fetchInstr
  rcases memRead_cases s.cfg.memSize (fetchMemory s) .fetch s.pc .word with ⟨f, hc, hm⟩ | ⟨hc, hm⟩
  · have hn : ¬(s.pc.toNat % 4 = 0 ∧ s.pc.toNat + 4 ≤ s.cfg.memSize) := by
      intro hh
      simp only [Width.bytes] at hc
      rw [checkAccess_none_iff.2 hh] at hc
      cases hc
    simp only [hm, reduceCtorEq, false_iff]
    exact fun hh => hn ⟨hh.1, hh.2.1⟩
  · have hh := checkAccess_none_iff.1 hc
    simp only [Width.bytes] at hh
    simp only [hm, hh.1, hh.2, true_and]
    cases decode s.cfg.mExt ((fetchMemory s).readWidth s.pc.toNat .word) <;> simp

/-- The memory the fetch stage reads when the memory stage does not raise (R204). -/
theorem fetchMemory_of_ok {s : State} {m : MemOut} (h : memoryStage s = .ok m) :
    fetchMemory s = if s.cfg.storeBeforeFetch then m.mem else s.mem := by
  unfold fetchMemory
  rw [h]

end Sys2Proof.Machine
end

