-- ==== Sys2Proof/Laws/Registers.lean ====
section
/-! SUPPORT. The register file: what a read after a write gives (10_state.md R41). -/

namespace Sys2Proof.Machine

theorem RegFile.read_zero (x : RegFile) : x.read 0#5 = 0#32 := rfl

theorem RegFile.read_of_ne (x : RegFile) {r : Reg} (h : r ≠ 0#5) : x.read r = x[r.toNat] := by
  simp [RegFile.read, h]

theorem RegFile.write_zero (x : RegFile) (v : Word) : x.write 0#5 v = x := rfl

theorem RegFile.read_write_same (x : RegFile) {r : Reg} (v : Word) (h : r ≠ 0#5) : (x.write r v).read r = v := by
  simp [RegFile.read, RegFile.write, h]

theorem RegFile.read_write_other (x : RegFile) {r q : Reg} (v : Word) (h : q ≠ r) :
    (x.write r v).read q = x.read q := by
  have hn : r.toNat ≠ q.toNat := fun e => h (BitVec.eq_of_toNat_eq e.symm)
  by_cases hr : r = 0#5
  · subst hr; rfl
  · by_cases hq : q = 0#5
    · subst hq; rfl
    · simp [RegFile.read, RegFile.write, hr, hq, hn]

/-- Entry 0 of the file is never written. -/
theorem RegFile.write_entry_zero (x : RegFile) (r : Reg) (v : Word) : (x.write r v)[0] = x[0] := by
  by_cases hr : r = 0#5
  · subst hr; rfl
  · have hn : r.toNat ≠ 0 := fun e => hr (BitVec.eq_of_toNat_eq e)
    simp [RegFile.write, hr, hn]

end Sys2Proof.Machine
end

