-- ==== Sys2Proof/Tests/Slice0.lean ====
section
/-! SUPPORT. Tests on small states, and for every statement with hypotheses a state and operands that meet them. Expected
values are those of the spec's examples and vectors (95_test_vectors.md; the examples of 42 to 47). -/

namespace Sys2Proof.Tests

open Sys2Proof Sys2Proof.Machine

/-! ## Well-formedness refuses -/

theorem test_wellFormed_odd_branch : (Instr.beq 1#5 2#5 0x007#13).wellFormed true = false := by decide
theorem test_wellFormed_odd_jump : (Instr.jal 1#5 0x000001#21).wellFormed true = false := by decide
theorem test_wellFormed_absent_extension : (Instr.mul 3#5 1#5 2#5).wellFormed false = false := by decide
theorem test_wellFormed_branch : (Instr.bne 1#5 2#5 0x1FF8#13).wellFormed false = true := by decide

/-! ## Decoding: one word of the spec for every constructor -/

theorem test_decode_add : decode false 0x002081B3#32 = .ok (.add 3#5 1#5 2#5) := by decide
theorem test_decode_sub : decode false 0x402081B3#32 = .ok (.sub 3#5 1#5 2#5) := by decide
theorem test_decode_sll : decode false 0x002091B3#32 = .ok (.sll 3#5 1#5 2#5) := by decide
theorem test_decode_slt : decode false 0x0020A1B3#32 = .ok (.slt 3#5 1#5 2#5) := by decide
theorem test_decode_sltu : decode false 0x0020B1B3#32 = .ok (.sltu 3#5 1#5 2#5) := by decide
theorem test_decode_xor : decode false 0x0020C1B3#32 = .ok (.xor 3#5 1#5 2#5) := by decide
theorem test_decode_srl : decode false 0x0020D1B3#32 = .ok (.srl 3#5 1#5 2#5) := by decide
theorem test_decode_sra : decode false 0x4020D1B3#32 = .ok (.sra 3#5 1#5 2#5) := by decide
theorem test_decode_or : decode false 0x0020E1B3#32 = .ok (.or 3#5 1#5 2#5) := by decide
theorem test_decode_and : decode false 0x0020F1B3#32 = .ok (.and 3#5 1#5 2#5) := by decide
theorem test_decode_addi : decode false 0xFFF08193#32 = .ok (.addi 3#5 1#5 0xFFF#12) := by decide
theorem test_decode_slti : decode false 0x0010A193#32 = .ok (.slti 3#5 1#5 1#12) := by decide
theorem test_decode_sltiu : decode false 0xFFF0B193#32 = .ok (.sltiu 3#5 1#5 0xFFF#12) := by decide
theorem test_decode_xori : decode false 0xFFF0C193#32 = .ok (.xori 3#5 1#5 0xFFF#12) := by decide
theorem test_decode_ori : decode false 0x0F00E193#32 = .ok (.ori 3#5 1#5 0x0F0#12) := by decide
theorem test_decode_andi : decode false 0x0FF0F193#32 = .ok (.andi 3#5 1#5 0x0FF#12) := by decide
theorem test_decode_slli : decode false 0x00409193#32 = .ok (.slli 3#5 1#5 4#5) := by decide
theorem test_decode_srli : decode false 0x0040D193#32 = .ok (.srli 3#5 1#5 4#5) := by decide
theorem test_decode_srai : decode false 0x4040D193#32 = .ok (.srai 3#5 1#5 4#5) := by decide
theorem test_decode_lui : decode false 0x123451B7#32 = .ok (.lui 3#5 0x12345#20) := by decide
theorem test_decode_auipc : decode false 0x00001197#32 = .ok (.auipc 3#5 1#20) := by decide
theorem test_decode_lb : decode false 0x00308183#32 = .ok (.lb 3#5 1#5 3#12) := by decide
theorem test_decode_lh : decode false 0x00209183#32 = .ok (.lh 3#5 1#5 2#12) := by decide
theorem test_decode_lw : decode false 0xFFC0A183#32 = .ok (.lw 3#5 1#5 0xFFC#12) := by decide
theorem test_decode_lbu : decode false 0x0000C183#32 = .ok (.lbu 3#5 1#5 0#12) := by decide
theorem test_decode_lhu : decode false 0x0020D183#32 = .ok (.lhu 3#5 1#5 2#12) := by decide
theorem test_decode_sb : decode false 0x002080A3#32 = .ok (.sb 1#5 2#5 1#12) := by decide
theorem test_decode_sh : decode false 0x00209123#32 = .ok (.sh 1#5 2#5 2#12) := by decide
theorem test_decode_sw : decode false 0x00C12223#32 = .ok (.sw 2#5 12#5 4#12) := by decide
theorem test_decode_beq : decode false 0xFE000EE3#32 = .ok (.beq 0#5 0#5 0x1FFC#13) := by decide
theorem test_decode_bne : decode false 0xFE209CE3#32 = .ok (.bne 1#5 2#5 0x1FF8#13) := by decide
theorem test_decode_blt : decode false 0x0020C863#32 = .ok (.blt 1#5 2#5 16#13) := by decide
theorem test_decode_bge : decode false 0x0020D863#32 = .ok (.bge 1#5 2#5 16#13) := by decide
theorem test_decode_bltu : decode false 0x0020E863#32 = .ok (.bltu 1#5 2#5 16#13) := by decide
theorem test_decode_bgeu : decode false 0x0020F863#32 = .ok (.bgeu 1#5 2#5 16#13) := by decide
theorem test_decode_jal : decode false 0x800000EF#32 = .ok (.jal 1#5 0x100000#21) := by decide
theorem test_decode_jalr : decode false 0xFFF00067#32 = .ok (.jalr 0#5 0#5 0xFFF#12) := by decide
theorem test_decode_ecall : decode false 0x00000073#32 = .ok (.ecall) := by decide
theorem test_decode_bubble : decode false 0x00000000#32 = .ok (.bubble) := by decide
theorem test_decode_mul : decode true 0x022081B3#32 = .ok (.mul 3#5 1#5 2#5) := by decide
theorem test_decode_mulh : decode true 0x022091B3#32 = .ok (.mulh 3#5 1#5 2#5) := by decide
theorem test_decode_mulhsu : decode true 0x0220A1B3#32 = .ok (.mulhsu 3#5 1#5 2#5) := by decide
theorem test_decode_mulhu : decode true 0x0220B1B3#32 = .ok (.mulhu 3#5 1#5 2#5) := by decide
theorem test_decode_div : decode true 0x0220C1B3#32 = .ok (.div 3#5 1#5 2#5) := by decide
theorem test_decode_divu : decode true 0x0220D1B3#32 = .ok (.divu 3#5 1#5 2#5) := by decide
theorem test_decode_rem : decode true 0x0220E1B3#32 = .ok (.rem 3#5 1#5 2#5) := by decide
theorem test_decode_remu : decode true 0x0220F1B3#32 = .ok (.remu 3#5 1#5 2#5) := by decide

/-- Whether a word is refused by the decoder without `M_EXT`. -/
def refusedWord (w : Word) : Bool :=
  match decode false w with
  | .ok _ => false
  | .error _ => true

/-- The decode errors D-13 to D-28 of 95_test_vectors.md. -/
theorem test_decode_refuses_1 : [0x02208133#32, 0x00100073#32, 0x0000000F#32, 0x30200073#32, 0x00002073#32].all refusedWord = true := by
  decide
theorem test_decode_refuses_2 : [0x40001033#32, 0x40209093#32, 0x00003003#32, 0x00006003#32, 0x00003023#32].all refusedWord = true := by
  decide
theorem test_decode_refuses_3 :
    [0x00002063#32, 0x00001067#32, 0x00000001#32, 0xFFFFFFFF#32, 0x800000B3#32, 0x20005013#32].all refusedWord = true := by
  decide

/-- 98_reader.md and R104: the bytes of a word, lowest address first; what follows the word is left. -/
theorem test_decodeBytes : decodeBytes false [0xB3#8, 0x81#8, 0x20#8, 0x00#8, 0x13#8] =
    .ok (.add 3#5 1#5 2#5, [0x13#8]) := by decide

theorem test_decodeTableWord : decodeTableWord 32 0x002081B3 = some (.add 3#5 1#5 2#5) := by decide
theorem test_decodeTableWord_extension : decodeTableWord 32 0x0220C1B3 = some (.div 3#5 1#5 2#5) := by decide

/-! ## One cycle with an instruction in one stage -/

/-- Registers x1 and x2, all others 0. -/
def regs (a b : Word) : RegFile := ((Vector.replicate 32 0#32).set 1 a).set 2 b

/-- A machine as created, with these registers. -/
def machine (c : Config) (a b : Word) : State := State.created c [] (regs a b) 0#32

/-- The configuration with `M_EXT`. -/
def withM : Config := { Config.default with mExt := true }

/-- The configuration with `M_EXT` and `DIV_CORNER` `riscv`. -/
def withRiscv : Config := { Config.default with mExt := true, divCorner := .riscv }

/-- The bytes of part 5 of 95_test_vectors.md, the word 0x92345680 at 0x100. -/
def dataMemory : Memory := [(0x100, 0x80#8), (0x101, 0x56#8), (0x102, 0x34#8), (0x103, 0x92#8)]

/-- A machine with four instructions in flight, at 0xC to 0x0; the one in EXMEM has the result or address `ea`, the one
in MEMWB the result or loaded value `v`. -/
def pipeline (c : Config) (f d e w : Instr) (ea v : Word) (taken : Bool) : State :=
  { State.created c dataMemory (regs 0x100#32 0xAABBCCDD#32) 0x10#32 with
    ifid := fetchLatch 0xC#32 (viewOf f)
    idex := decodeStage (fetchLatch 8#32 (viewOf d)) (regs 0x100#32 0xAABBCCDD#32)
    exmem := { inst := viewOf e, pc := 4#32, ctl := ctlOf (viewOf e), alu := ea, sv := 0xAABBCCDD#32, taken := taken,
               target := 0x40#32 }
    memwb := { inst := viewOf w, pc := 0#32, ctl := ctlOf (viewOf w), alu := v, md := v } }

/-- The state of a cycle that commits. -/
def nextState (o : Host.Outcome State Fault Refusal) : Option State :=
  match o with
  | .next t => some t
  | .fault _ => none
  | .refused _ => none

/-- The fault of a cycle that raises. -/
def raised (o : Host.Outcome State Fault Refusal) : Option Fault :=
  match o with
  | .next _ => none
  | .fault f => some f
  | .refused _ => none

/-- The machine whose instruction in the execute stage is the word `w` at `pc`, with x1 = `a` and x2 = `b`. -/
def executing (c : Config) (w pc a b : Word) : State :=
  match decode c.mExt w with
  | .ok i => { machine c a b with idex := decodeStage (fetchLatch pc (viewOf i)) (regs a b) }
  | .error _ => machine c a b

/-- The result, the redirect and the target it leaves in EXMEM. -/
def executed (c : Config) (w pc a b : Word) : Option (Word × Bool × Word) :=
  (nextState (exec .bubble (executing c w pc a b))).map fun t => (t.exmem.alu, t.exmem.taken, t.exmem.target)

/-- The value a load leaves in MEMWB. -/
def loaded (i : Instr) (ea : Word) : Option Word :=
  (nextState (exec .bubble (pipeline .default .bubble .bubble i .bubble ea 0#32 false))).map fun t => t.memwb.md

/-- The word at 0x100 after a store of 0xAABBCCDD. -/
def stored (i : Instr) (ea : Word) : Option Word :=
  (nextState (exec .bubble (pipeline .default .bubble .bubble i .bubble ea 0#32 false))).map
    fun t => t.mem.readWidth 0x100 .word

/-! ## The execute stage (parts 3, 4, 6 and 8 of 95_test_vectors.md) -/

theorem test_add_1 : executed .default 0x002081B3#32 0x0#32 0x7FFFFFFF#32 0x1#32 = some (0x80000000#32, false, 0x0#32) := by
  decide
theorem test_add_2 : executed .default 0x002081B3#32 0x0#32 0xFFFFFFFF#32 0x1#32 = some (0x0#32, false, 0x0#32) := by
  decide
theorem test_sub_1 : executed .default 0x402081B3#32 0x0#32 0x0#32 0x1#32 = some (0xFFFFFFFF#32, false, 0x0#32) := by
  decide
theorem test_sub_2 : executed .default 0x402081B3#32 0x0#32 0x80000000#32 0x1#32 = some (0x7FFFFFFF#32, false, 0x0#32) := by
  decide
theorem test_sll_1 : executed .default 0x002091B3#32 0x0#32 0x1#32 0x1F#32 = some (0x80000000#32, false, 0x0#32) := by
  decide
theorem test_sll_2 : executed .default 0x002091B3#32 0x0#32 0xFFFFFFFF#32 0x21#32 = some (0xFFFFFFFE#32, false, 0x0#32) := by
  decide
theorem test_slt_1 : executed .default 0x0020A1B3#32 0x0#32 0x80000000#32 0x7FFFFFFF#32 = some (0x1#32, false, 0x0#32) := by
  decide
theorem test_slt_2 : executed .default 0x0020A1B3#32 0x0#32 0x7FFFFFFF#32 0x80000000#32 = some (0x0#32, false, 0x0#32) := by
  decide
theorem test_sltu_1 : executed .default 0x0020B1B3#32 0x0#32 0x80000000#32 0x7FFFFFFF#32 = some (0x0#32, false, 0x0#32) := by
  decide
theorem test_sltu_2 : executed .default 0x0020B1B3#32 0x0#32 0x0#32 0x1#32 = some (0x1#32, false, 0x0#32) := by decide
theorem test_xor_1 : executed .default 0x0020C1B3#32 0x0#32 0xFFFFFFFF#32 0x12345678#32 = some (0xEDCBA987#32, false, 0x0#32) := by
  decide
theorem test_srl_1 : executed .default 0x0020D1B3#32 0x0#32 0x80000000#32 0x1F#32 = some (0x1#32, false, 0x0#32) := by
  decide
theorem test_srl_2 : executed .default 0x0020D1B3#32 0x0#32 0x80000000#32 0x20#32 = some (0x80000000#32, false, 0x0#32) := by
  decide
theorem test_sra_1 : executed .default 0x4020D1B3#32 0x0#32 0x80000000#32 0x1F#32 = some (0xFFFFFFFF#32, false, 0x0#32) := by
  decide
theorem test_sra_2 : executed .default 0x4020D1B3#32 0x0#32 0xF0000000#32 0x24#32 = some (0xFF000000#32, false, 0x0#32) := by
  decide
theorem test_or_1 : executed .default 0x0020E1B3#32 0x0#32 0x80000000#32 0x1#32 = some (0x80000001#32, false, 0x0#32) := by
  decide
theorem test_and_1 : executed .default 0x0020F1B3#32 0x0#32 0xFFFFFFFF#32 0x0#32 = some (0x0#32, false, 0x0#32) := by
  decide
theorem test_addi_1 : executed .default 0x00108193#32 0x0#32 0x7FFFFFFF#32 0x0#32 = some (0x80000000#32, false, 0x0#32) := by
  decide
theorem test_addi_2 : executed .default 0x80008193#32 0x0#32 0x0#32 0x0#32 = some (0xFFFFF800#32, false, 0x0#32) := by
  decide
theorem test_slti_1 : executed .default 0x0000A193#32 0x0#32 0xFFFFFFFF#32 0x0#32 = some (0x1#32, false, 0x0#32) := by
  decide
theorem test_slti_2 : executed .default 0xFFF0A193#32 0x0#32 0x0#32 0x0#32 = some (0x0#32, false, 0x0#32) := by decide
theorem test_sltiu_1 : executed .default 0x0010B193#32 0x0#32 0x1#32 0x0#32 = some (0x0#32, false, 0x0#32) := by decide
theorem test_sltiu_2 : executed .default 0xFFF0B193#32 0x0#32 0xFFFFFFFE#32 0x0#32 = some (0x1#32, false, 0x0#32) := by
  decide
theorem test_xori_1 : executed .default 0xFFF0C193#32 0x0#32 0x12345678#32 0x0#32 = some (0xEDCBA987#32, false, 0x0#32) := by
  decide
theorem test_ori_1 : executed .default 0x8000E193#32 0x0#32 0x0#32 0x0#32 = some (0xFFFFF800#32, false, 0x0#32) := by
  decide
theorem test_andi_1 : executed .default 0x8000F193#32 0x0#32 0xFFFFFFFF#32 0x0#32 = some (0xFFFFF800#32, false, 0x0#32) := by
  decide
theorem test_andi_2 : executed .default 0x7FF0F193#32 0x0#32 0x12345678#32 0x0#32 = some (0x678#32, false, 0x0#32) := by
  decide
theorem test_slli_1 : executed .default 0x01F09193#32 0x0#32 0xFFFFFFFF#32 0x0#32 = some (0x80000000#32, false, 0x0#32) := by
  decide
theorem test_slli_2 : executed .default 0x00009193#32 0x0#32 0x12345678#32 0x0#32 = some (0x12345678#32, false, 0x0#32) := by
  decide
theorem test_srli_1 : executed .default 0x01F0D193#32 0x0#32 0xFFFFFFFF#32 0x0#32 = some (0x1#32, false, 0x0#32) := by
  decide
theorem test_srai_1 : executed .default 0x41F0D193#32 0x0#32 0x7FFFFFFF#32 0x0#32 = some (0x0#32, false, 0x0#32) := by
  decide
theorem test_srai_2 : executed .default 0x4010D193#32 0x0#32 0x80000001#32 0x0#32 = some (0xC0000000#32, false, 0x0#32) := by
  decide
theorem test_lui_1 : executed .default 0x123451B7#32 0x0#32 0x0#32 0x0#32 = some (0x12345000#32, false, 0x0#32) := by
  decide
theorem test_lui_2 : executed .default 0x800001B7#32 0x0#32 0x0#32 0x0#32 = some (0x80000000#32, false, 0x0#32) := by
  decide
theorem test_auipc_1 : executed .default 0x00001197#32 0x100#32 0x0#32 0x0#32 = some (0x1100#32, false, 0x0#32) := by
  decide
theorem test_auipc_2 : executed .default 0xFFFFF197#32 0x0#32 0x0#32 0x0#32 = some (0xFFFFF000#32, false, 0x0#32) := by
  decide
theorem test_lb_address : executed .default 0x00308183#32 0x0#32 0x100#32 0xAABBCCDD#32 = some (0x103#32, false, 0x0#32) := by
  decide
theorem test_lh_address : executed .default 0x00209183#32 0x0#32 0x100#32 0xAABBCCDD#32 = some (0x102#32, false, 0x0#32) := by
  decide
theorem test_lw_address : executed .default 0xFFC0A183#32 0x0#32 0x100#32 0xAABBCCDD#32 = some (0xFC#32, false, 0x0#32) := by
  decide
theorem test_lbu_address : executed .default 0x0000C183#32 0x0#32 0x100#32 0xAABBCCDD#32 = some (0x100#32, false, 0x0#32) := by
  decide
theorem test_lhu_address : executed .default 0x0020D183#32 0x0#32 0x100#32 0xAABBCCDD#32 = some (0x102#32, false, 0x0#32) := by
  decide
theorem test_sb_address : executed .default 0x002080A3#32 0x0#32 0x100#32 0xAABBCCDD#32 = some (0x101#32, false, 0x0#32) := by
  decide
theorem test_sh_address : executed .default 0x00209123#32 0x0#32 0x100#32 0xAABBCCDD#32 = some (0x102#32, false, 0x0#32) := by
  decide
theorem test_sw_address : executed .default 0x0020A023#32 0x0#32 0x100#32 0xAABBCCDD#32 = some (0x100#32, false, 0x0#32) := by
  decide
theorem test_beq_taken : executed .default 0x00208463#32 0x20#32 0x5#32 0x5#32 = some (0x0#32, true, 0x28#32) := by
  decide
theorem test_beq_untaken : executed .default 0x00208463#32 0x20#32 0x1#32 0x0#32 = some (0x0#32, false, 0x28#32) := by
  decide
theorem test_bne_untaken : executed .default 0xFE209CE3#32 0x20#32 0x5#32 0x5#32 = some (0x0#32, false, 0x18#32) := by
  decide
theorem test_bne_taken : executed .default 0xFE209CE3#32 0x20#32 0x1#32 0x0#32 = some (0x0#32, true, 0x18#32) := by
  decide
theorem test_blt_taken : executed .default 0x0020C863#32 0x20#32 0xFFFFFFFF#32 0x1#32 = some (0x0#32, true, 0x30#32) := by
  decide
theorem test_blt_untaken : executed .default 0x0020C863#32 0x20#32 0x1#32 0xFFFFFFFF#32 = some (0x0#32, false, 0x30#32) := by
  decide
theorem test_bge_taken : executed .default 0x0020D863#32 0x20#32 0x5#32 0x5#32 = some (0x0#32, true, 0x30#32) := by
  decide
theorem test_bge_untaken : executed .default 0x0020D863#32 0x20#32 0x80000000#32 0x7FFFFFFF#32 = some (0x0#32, false, 0x30#32) := by
  decide
theorem test_bltu_untaken : executed .default 0x0020E863#32 0x20#32 0xFFFFFFFF#32 0x1#32 = some (0x0#32, false, 0x30#32) := by
  decide
theorem test_bltu_taken : executed .default 0x0020E863#32 0x20#32 0x1#32 0xFFFFFFFF#32 = some (0x0#32, true, 0x30#32) := by
  decide
theorem test_bgeu_taken : executed .default 0x0020F863#32 0x20#32 0x80000000#32 0x7FFFFFFF#32 = some (0x0#32, true, 0x30#32) := by
  decide
theorem test_bgeu_untaken : executed .default 0x0020F863#32 0x20#32 0x1#32 0xFFFFFFFF#32 = some (0x0#32, false, 0x30#32) := by
  decide
theorem test_jal_1 : executed .default 0x020000EF#32 0x40#32 0x0#32 0x0#32 = some (0x44#32, true, 0x60#32) := by decide
theorem test_jalr_odd_target : executed .default 0x004100E7#32 0x40#32 0x0#32 0x11#32 = some (0x44#32, true, 0x15#32) := by
  decide
theorem test_mul_1 : executed withM 0x022081B3#32 0x0#32 0x80000000#32 0xFFFFFFFF#32 = some (0x80000000#32, false, 0x0#32) := by
  decide
theorem test_mul_2 : executed withM 0x022081B3#32 0x0#32 0x7#32 0xFFFFFFFD#32 = some (0xFFFFFFEB#32, false, 0x0#32) := by
  decide
theorem test_mulh_1 : executed withM 0x022091B3#32 0x0#32 0xFFFFFFFF#32 0x1#32 = some (0xFFFFFFFF#32, false, 0x0#32) := by
  decide
theorem test_mulh_2 : executed withM 0x022091B3#32 0x0#32 0x7FFFFFFF#32 0x7FFFFFFF#32 = some (0x3FFFFFFF#32, false, 0x0#32) := by
  decide
theorem test_mulhsu_1 : executed withM 0x0220A1B3#32 0x0#32 0xFFFFFFFF#32 0x1#32 = some (0xFFFFFFFF#32, false, 0x0#32) := by
  decide
theorem test_mulhsu_2 : executed withM 0x0220A1B3#32 0x0#32 0x1#32 0xFFFFFFFF#32 = some (0x0#32, false, 0x0#32) := by
  decide
theorem test_mulhu_1 : executed withM 0x0220B1B3#32 0x0#32 0x80000000#32 0x2#32 = some (0x1#32, false, 0x0#32) := by
  decide
theorem test_div_1 : executed withM 0x0220C1B3#32 0x0#32 0xFFFFFFF9#32 0xFFFFFFFE#32 = some (0x3#32, false, 0x0#32) := by
  decide
theorem test_div_2 : executed withM 0x0220C1B3#32 0x0#32 0x7#32 0xFFFFFFFE#32 = some (0xFFFFFFFD#32, false, 0x0#32) := by
  decide
theorem test_divu_1 : executed withM 0x0220D1B3#32 0x0#32 0x7#32 0x2#32 = some (0x3#32, false, 0x0#32) := by decide
theorem test_divu_2 : executed withM 0x0220D1B3#32 0x0#32 0x80000000#32 0xFFFFFFFF#32 = some (0x0#32, false, 0x0#32) := by
  decide
theorem test_rem_1 : executed withM 0x0220E1B3#32 0x0#32 0x7#32 0x2#32 = some (0x1#32, false, 0x0#32) := by decide
theorem test_rem_2 : executed withM 0x0220E1B3#32 0x0#32 0xFFFFFFF9#32 0xFFFFFFFE#32 = some (0xFFFFFFFF#32, false, 0x0#32) := by
  decide
theorem test_remu_1 : executed withM 0x0220F1B3#32 0x0#32 0x7#32 0xFFFFFFFF#32 = some (0x7#32, false, 0x0#32) := by
  decide
theorem test_remu_2 : executed withM 0x0220F1B3#32 0x0#32 0x80000000#32 0xFFFFFFFF#32 = some (0x80000000#32, false, 0x0#32) := by
  decide

/-- M-18, M-19, M-21: the corner cases with `DIV_CORNER` `riscv`. -/
theorem test_divide_corners_riscv :
    [executed withRiscv 0x0220C1B3#32 0#32 7#32 0#32, executed withRiscv 0x0220E1B3#32 0#32 7#32 0#32,
     executed withRiscv 0x0220D1B3#32 0#32 7#32 0#32, executed withRiscv 0x0220F1B3#32 0#32 7#32 0#32,
     executed withRiscv 0x0220C1B3#32 0#32 0x80000000#32 0xFFFFFFFF#32,
     executed withRiscv 0x0220E1B3#32 0#32 0x80000000#32 0xFFFFFFFF#32].map (fun o => o.map fun p => p.1) =
    [some 0xFFFFFFFF#32, some 7#32, some 0xFFFFFFFF#32, some 7#32, some 0x80000000#32, some 0#32] := by decide

/-- M-17, M-20: the corner cases with `DIV_CORNER` `fault`. -/
theorem test_divide_corners_fault :
    raised (exec .bubble (executing withM 0x0220C1B3#32 4#32 7#32 0#32)) = some (.arith 4#32 7#32 0#32) ∧
    raised (exec .bubble (executing withM 0x0220C1B3#32 4#32 0x80000000#32 0xFFFFFFFF#32)) =
      some (.arith 4#32 0x80000000#32 0xFFFFFFFF#32) := by decide

/-! ## The memory stage (part 5) -/

theorem test_lb_value : loaded (.lb 3#5 1#5 0#12) 0x100#32 = some 0xFFFFFF80#32 := by decide
theorem test_lh_value : loaded (.lh 3#5 1#5 0#12) 0x102#32 = some 0xFFFF9234#32 := by decide
theorem test_lw_value : loaded (.lw 3#5 1#5 0#12) 0x100#32 = some 0x92345680#32 := by decide
theorem test_lbu_value : loaded (.lbu 3#5 1#5 0#12) 0x100#32 = some 0x80#32 := by decide
theorem test_lhu_value : loaded (.lhu 3#5 1#5 0#12) 0x102#32 = some 0x9234#32 := by decide
theorem test_sb_value : stored (.sb 1#5 2#5 0#12) 0x101#32 = some 0x9234DD80#32 := by decide
theorem test_sh_value : stored (.sh 1#5 2#5 0#12) 0x102#32 = some 0xCCDD5680#32 := by decide
theorem test_sw_value : stored (.sw 1#5 2#5 0#12) 0x100#32 = some 0xAABBCCDD#32 := by decide

/-- F-11, F-12, F-13, F-2: alignment is checked before bounds. -/
theorem test_access_faults :
    [raised (exec .bubble (pipeline .default .bubble .bubble (.lh 2#5 1#5 0#12) .bubble 0x101#32 0#32 false)),
     raised (exec .bubble (pipeline .default .bubble .bubble (.sh 1#5 0#5 0#12) .bubble 0x103#32 0#32 false)),
     raised (exec .bubble (pipeline .default .bubble .bubble (.lw 2#5 1#5 0#12) .bubble 0x1FE#32 0#32 false)),
     raised (exec .bubble (pipeline .default .bubble .bubble (.sw 1#5 0#5 0#12) .bubble 0x200#32 0#32 false))] =
    [some (.misaligned .load 0x101#32 2), some (.misaligned .store 0x103#32 2), some (.misaligned .load 0x1FE#32 4),
     some (.bounds .store 0x200#32 4)] := by decide

/-! ## The writeback stage, ECALL and the bubble (part 7) -/

/-- A writeback to x5, and one to x0 (R230, R41). -/
theorem test_writeback :
    (nextState (exec .bubble (pipeline .default .bubble .bubble .bubble (.add 5#5 1#5 2#5) 0#32 9#32 false))).map
      (fun t => (t.x.read 5#5, t.x.read 1#5)) = some (9#32, 0x100#32) ∧
    (nextState (exec .bubble (pipeline .default .bubble .bubble .bubble (.add 0#5 1#5 2#5) 0#32 9#32 false))).map
      (fun t => t.x.read 0#5) = some 0#32 := by decide

/-- R421, S-1: the exit check passes. -/
theorem test_ecall_terminates :
    (nextState (exec .bubble
      { pipeline .default .bubble .bubble .bubble .ecall 0#32 0#32 false with
        x := (regs 0#32 0#32).set 10 10#32 })).map (fun t => t.status) = some .terminated := by decide

/-- R422, S-3: any other value is fatal. -/
theorem test_ecall_faults :
    raised (exec .bubble (pipeline .default .bubble .bubble .bubble .ecall 0#32 0#32 false)) =
      some (.syscall 0#32 0#32) := by decide

/-- S-8: a bubble moves on and changes nothing; one cycle is counted. -/
theorem test_bubble :
    (nextState (exec .bubble (machine .default 1#32 2#32))).map (fun t => (t.ifid.inst, t.x, t.mem, t.ctr)) =
      some (bubbleView, regs 1#32 2#32, [], { Counters.zero with cycles := 1 }) := by decide

/-! ## Hazards, forwarding, flush (parts 1 and 9) -/

/-- H-1, cycle 4: the stall holds `pc` and IFID and bubbles IDEX. -/
theorem test_stall :
    (nextState (exec .bubble
      (pipeline .default (.add 2#5 5#5 0#5) (.lw 5#5 0#5 0x100#12) .bubble .bubble 0#32 0#32 false))).map
      (fun t => (t.pc, t.ifid.inst.op, t.idex.inst.op, t.exmem.inst.op, t.ctr.stalls)) =
    some (0x10#32, .add, .bubble, .lw, 1) := by decide

/-- H-3, cycle 5: both operands from EXMEM although MEMWB writes the same register. -/
theorem test_nearer_stage_wins :
    (nextState (exec .bubble
      (pipeline .default .bubble (.add 2#5 1#5 1#5) (.addi 1#5 0#5 2#12) (.addi 1#5 0#5 1#12) 2#32 1#32 false))).map
      (fun t => (t.exmem.alu, t.ctr.fwdEx, t.ctr.fwdWb)) = some (4#32, 2, 0) := by decide

/-- H-7, cycle 4: a redirect beats a stall, which is counted all the same. -/
theorem test_redirect_beats_stall :
    (nextState (exec .bubble
      (pipeline .default (.add 2#5 5#5 1#5) (.lw 5#5 0#5 0x100#12) (.beq 0#5 0#5 60#13) .bubble 0#32 0#32 true))).map
      (fun t => (t.pc, t.ifid, t.idex, t.exmem, t.ctr.stalls, t.ctr.branchesTaken)) =
    some (0x40#32, bubbleIfId, bubbleIdEx, bubbleExMem, 1, 1) := by decide

/-- P4: a consumer decoded in its producer's writeback cycle, with and without `RF_WB_BEFORE_DECODE`. -/
theorem test_write_before_decode :
    ((nextState (exec .bubble
      (pipeline .default (.add 4#5 5#5 1#5) .bubble .bubble (.addi 5#5 0#5 1#12) 0#32 1#32 false))).map
        (fun t => t.idex.v1) = some 1#32) ∧
    ((nextState (exec .bubble
      (pipeline { Config.default with rfWbBeforeDecode := false } (.add 4#5 5#5 1#5) .bubble .bubble (.addi 5#5 0#5 1#12)
        0#32 1#32 false))).map (fun t => t.idex.v1) = some 0#32) := by decide

/-! ## The cache (parts 1 and 10) -/

/-- A full set of three lines of block size 16, as E-3 leaves it after a b c a. -/
def fullSet : CacheSet where
  clock := 4
  lines := [{ valid := true, tag := 0xA, block := 0xA0#32, ts := 4, count := 2 },
            { valid := true, tag := 0xB, block := 0xB0#32, ts := 2, count := 1 },
            { valid := true, tag := 0xC, block := 0xC0#32, ts := 3, count := 1 }]

/-- One set, three lines, blocks of 16 bytes. -/
def oneSet (p : Policy) : Config := { Config.default with sBits := 0, bBits := 4, ways := 3, policy := p }

/-- The result of a probe. -/
def probed (o : Except Fault (CacheSet × ProbeResult)) : Option ProbeResult :=
  match o with
  | .ok p => some p.2
  | .error _ => none

/-- E-3: the victim is b under both policies. -/
theorem test_probe_evicts :
    probed (probeSet (oneSet .lru) fullSet 0xD0#32) = some (.evict 0xB0#32 0xD0#32) ∧
    probed (probeSet (oneSet .lfu) fullSet 0xD0#32) = some (.evict 0xB0#32 0xD0#32) := by decide

/-- E-4a: counts 3, 1, 1; the frequency policy takes the older of b and c, the recency policy takes a. -/
theorem test_probe_policies :
    (let S : CacheSet := { clock := 5, lines := [{ valid := true, tag := 0xA, block := 0xA0#32, ts := 3, count := 3 },
        { valid := true, tag := 0xB, block := 0xB0#32, ts := 4, count := 1 },
        { valid := true, tag := 0xC, block := 0xC0#32, ts := 5, count := 1 }] }
     (probed (probeSet (oneSet .lfu) S 0xD0#32), probed (probeSet (oneSet .lru) S 0xD0#32))) =
    (some (.evict 0xB0#32 0xD0#32), some (.evict 0xA0#32 0xD0#32)) := by decide

/-- R473: the address split of its example. -/
theorem test_address_split :
    (offsetOf .default 0x1234#32, setOf .default 0x1234#32, tagOf .default 0x1234#32, blockOf .default 0x1234#32) =
      (4, 3, 0x48, 0x1230#32) := by decide

/-! ## The step, from reset -/

theorem test_step_from_reset :
    (nextState (step (State.reset.withFetchWord 32 0x002081B3))).map (fun t => t.ifid.inst.op) = some .add := by decide
theorem test_step_from_reset_extension :
    (nextState (step (State.reset.withFetchWord 32 0x0220C1B3))).map (fun t => t.ifid.inst.op) = some .div := by decide

/-- F-3, J-5: an illegal word is fatal in its fetch. -/
theorem test_step_decode_fault :
    raised (step (State.reset.withFetchWord 32 0xFFFFFFFF)) = some (.decode 0#32 0xFFFFFFFF#32) := by decide

/-- F-14: a start address of 2. -/
theorem test_step_misaligned_start :
    raised (step (State.created .default [] (regs 0#32 0#32) 2#32)) = some (.misaligned .fetch 2#32 4) := by decide

/-- R251, F-15. -/
theorem test_step_refused :
    advanceCycle { State.reset with status := .terminated } =
      .refused .notRunning { State.reset with status := .terminated } := by decide

/-! ## Witnesses: states and operands that meet the hypotheses of the statements -/

/-- A machine that is not at its reset values and is `Ready`: x1 = 0x1FC, x2 = 0x1FE, x10 = 10, data at 0x100. -/
def ready (c : Config) (a b : Word) : State :=
  { State.created c dataMemory ((regs a b).set 10 10#32) 0#32 with ctr := { Counters.zero with cycles := 7 } }

/-- A machine whose next word is `w`. -/
def fetching (c : Config) (w : Word) : State := State.created c (Memory.writeWidth [] 0 w .word) (regs 1#32 2#32) 0#32

theorem witness_DecodeOfEncode :
    (Instr.beq 31#5 31#5 0x1000#13).wellFormed false = true ∧ (Instr.div 3#5 1#5 2#5).wellFormed true = true := by
  decide

theorem witness_EncodeOfDecode : decode true 0x800000EF#32 = .ok (.jal 1#5 0x100000#21) := by decide

theorem witness_ViewOfDecoded : decode false 0x00C12223#32 = .ok (.sw 2#5 12#5 4#12) := by decide

theorem witness_DecodeAdmitsExactlyTheRows :
    (∃ i, decode true 0x0220C1B3#32 = .ok i ∧ i.mnemonic = .div) ∧ matchesRow .div 0x0220C1B3#32 = true :=
  ⟨⟨.div 3#5 1#5 2#5, by decide, rfl⟩, by decide⟩

/-- A word of no row, and one of a row that the machine does not have. -/
theorem witness_WordOfNoRowFaults :
    ((fetching withM 0xFFFFFFFF#32).status = .running ∧ (fetching withM 0xFFFFFFFF#32).pc.toNat % 4 = 0 ∧
      (fetching withM 0xFFFFFFFF#32).pc.toNat + 4 ≤ (fetching withM 0xFFFFFFFF#32).cfg.memSize ∧
      (fetchMemory (fetching withM 0xFFFFFFFF#32)).readWidth 0 .word = 0xFFFFFFFF#32 ∧
      ∀ k, matchesRow k 0xFFFFFFFF#32 = true → k.isM = true ∧ withM.mExt = false) ∧
    ((fetchMemory (fetching .default 0x021081B3#32)).readWidth 0 .word = 0x021081B3#32 ∧
      ∀ k, matchesRow k 0x021081B3#32 = true → k.isM = true ∧ Config.default.mExt = false) := by
  refine ⟨⟨by decide, by decide, by decide, by decide, ?_⟩, by decide, ?_⟩ <;> (intro k; cases k <;> decide)

theorem witness_StepRunsTheDecodedInstruction :
    (fetching .default 0x002081B3#32).status = .running ∧ (fetching .default 0x002081B3#32).pc.toNat % 4 = 0 ∧
    (fetching .default 0x002081B3#32).pc.toNat + 4 ≤ (fetching .default 0x002081B3#32).cfg.memSize ∧
    decode (fetching .default 0x002081B3#32).cfg.mExt
      ((fetchMemory (fetching .default 0x002081B3#32)).readWidth (fetching .default 0x002081B3#32).pc.toNat .word) =
        .ok (.add 3#5 1#5 2#5) := by decide

theorem witness_NotRunningIsRefused :
    ({ State.reset with status := .terminated } : State).status ≠ .running ∧
    ({ State.reset with status := .faulted (.arith 0#32 0#32 0#32) } : State).status ≠ .running := by decide

/-- Each clause at the edge of a memory of 0x200 bytes. -/
theorem witness_AccessesAreChecked :
    (0x1FF#32).toNat % Width.half.bytes ≠ 0 ∧ (0x1FE#32).toNat % Width.word.bytes ≠ 0 ∧
    ((0x200#32).toNat % Width.byte.bytes = 0 ∧ 0x200 < (0x200#32).toNat + Width.byte.bytes) ∧
    ((0x200#32).toNat % Width.word.bytes = 0 ∧ 0x200 < (0x200#32).toNat + Width.word.bytes) ∧
    ((0x1FF#32).toNat % Width.byte.bytes = 0 ∧ (0x1FF#32).toNat + Width.byte.bytes ≤ 0x200) ∧
    ((0x1FE#32).toNat % Width.half.bytes = 0 ∧ (0x1FE#32).toNat + Width.half.bytes ≤ 0x200) ∧
    ((0x1FC#32).toNat % Width.word.bytes = 0 ∧ (0x1FC#32).toNat + Width.word.bytes ≤ 0x200) := by decide

theorem witness_FetchAddressFaults :
    (({ State.reset with pc := 0x1FE#32 } : State).status = .running ∧ (0x1FE#32).toNat % 4 ≠ 0) ∧
    (({ State.reset with pc := 0x200#32 } : State).status = .running ∧ (0x200#32).toNat % 4 = 0 ∧
      State.reset.cfg.memSize < (0x200#32).toNat + 4) := by decide

/-- One state for each clause: a fault in fetch, execute, memory and writeback, and none. -/
theorem witness_FirstFaultIsReported :
    (fetchInstr { State.reset with pc := 2#32 } = .error (.misaligned .fetch 2#32 4)) ∧
    (∃ i f, fetchInstr (executing withM 0x0220C1B3#32 4#32 7#32 0#32) = .ok i ∧
      executeStage withM (executing withM 0x0220C1B3#32 4#32 7#32 0#32).idex
        (forward1 (executing withM 0x0220C1B3#32 4#32 7#32 0#32)).1
        (forward2 (executing withM 0x0220C1B3#32 4#32 7#32 0#32)).1 = .error f) ∧
    (∃ i e f, fetchInstr (pipeline .default .bubble .bubble (.lw 2#5 1#5 0#12) .bubble 0x1FE#32 0#32 false) = .ok i ∧
      executeStage .default (pipeline .default .bubble .bubble (.lw 2#5 1#5 0#12) .bubble 0x1FE#32 0#32 false).idex
        0#32 0#32 = .ok e ∧
      memoryStage (pipeline .default .bubble .bubble (.lw 2#5 1#5 0#12) .bubble 0x1FE#32 0#32 false) = .error f) ∧
    (∃ i e m f, fetchInstr (pipeline .default .bubble .bubble .bubble .ecall 0#32 0#32 false) = .ok i ∧
      executeStage .default (pipeline .default .bubble .bubble .bubble .ecall 0#32 0#32 false).idex 0#32 0#32 = .ok e ∧
      memoryStage (pipeline .default .bubble .bubble .bubble .ecall 0#32 0#32 false) = .ok m ∧
      writebackStage (pipeline .default .bubble .bubble .bubble .ecall 0#32 0#32 false) = .error f) ∧
    (∃ i e m r, fetchInstr State.reset = .ok i ∧ executeStage .default State.reset.idex 0#32 0#32 = .ok e ∧
      memoryStage State.reset = .ok m ∧ writebackStage State.reset = .ok r) :=
  ⟨rfl, ⟨.bubble, _, rfl, rfl⟩, ⟨.bubble, _, _, rfl, rfl, rfl⟩, ⟨.bubble, _, _, _, rfl, rfl, rfl, rfl⟩,
    ⟨.bubble, _, _, _, rfl, rfl, rfl, rfl⟩⟩

theorem witness_FatalCommitsNothing :
    step { State.reset with pc := 2#32 } = .fault (.misaligned .fetch 2#32 4) := rfl

/-- Four instructions in flight with a forward from each latch, and the cycle commits. -/
def busy : State := pipeline .default (.sub 4#5 3#5 5#5) (.add 3#5 6#5 7#5) (.addi 6#5 0#5 5#12) (.addi 7#5 0#5 9#12) 5#32 9#32 false

theorem witness_EveryInstructionEntersThePipeline :
    busy.status = .running ∧ (Instr.xor 3#5 1#5 2#5).admitted busy.cfg.mExt = true ∧
    ∃ e m p, executeStage busy.cfg busy.idex (forward1 busy).1 (forward2 busy).1 = .ok e ∧ memoryStage busy = .ok m ∧
      writebackStage busy = .ok p := ⟨rfl, rfl, _, _, _, rfl, rfl, rfl⟩

/-- `EpilogueOfTheCycle`, `CountersOfTheCycle`, `FetchedInstructionOnlyEntersIfId`: a cycle with forwards, one with a
stall, one with a redirect, each of which commits. -/
theorem witness_EpilogueOfTheCycle :
    (∃ t, exec (.xor 3#5 1#5 2#5) busy = .next t) ∧
    (∃ t, exec .bubble
      (pipeline .default (.add 2#5 5#5 0#5) (.lw 5#5 0#5 0x100#12) .bubble .bubble 0#32 0#32 false) = .next t) ∧
    (∃ t, exec .bubble
      (pipeline .default (.add 2#5 5#5 1#5) .bubble (.beq 0#5 0#5 60#13) .bubble 0#32 0#32 true) = .next t) :=
  ⟨⟨_, rfl⟩, ⟨_, rfl⟩, ⟨_, rfl⟩⟩

/-- A result and a loaded value written, a write to x0, an exit; and an unsupported code. -/
theorem witness_WritebackOfTheCycle :
    (∃ t, exec .bubble (pipeline .default .bubble .bubble .bubble (.add 31#5 1#5 2#5) 0#32 9#32 false) = .next t) ∧
    (∃ t, exec .bubble (pipeline .default .bubble .bubble .bubble (.lw 5#5 1#5 0#12) 0#32 9#32 false) = .next t) ∧
    (∃ t, exec .bubble (pipeline .default .bubble .bubble .bubble (.add 0#5 1#5 2#5) 0#32 9#32 false) = .next t) ∧
    (∃ t, exec .bubble { pipeline .default .bubble .bubble .bubble .ecall 0#32 0#32 false with
      x := (regs 0#32 0#32).set 10 10#32 } = .next t) ∧
    (∃ e m, executeStage .default (pipeline .default .bubble .bubble .bubble .ecall 0#32 0#32 false).idex 0#32 0#32 = .ok e ∧
      memoryStage (pipeline .default .bubble .bubble .bubble .ecall 0#32 0#32 false) = .ok m ∧
      (pipeline .default .bubble .bubble .bubble .ecall 0#32 0#32 false).memwb.ctl.syscall = true ∧
      ((pipeline .default .bubble .bubble .bubble .ecall 0#32 0#32 false).memwb.retire
        (pipeline .default .bubble .bubble .bubble .ecall 0#32 0#32 false).x).read 10#5 ≠ 10#32) :=
  ⟨⟨_, rfl⟩, ⟨_, rfl⟩, ⟨_, rfl⟩, ⟨_, rfl⟩, ⟨_, _, rfl, rfl, rfl, by decide⟩⟩

/-- Loads and stores at the last bytes of memory, and a cycle with neither, with and without `MEM_PROBE`
(`MemoryStageOfTheCycle`, `ProbesOfTheCycle`). -/
theorem witness_MemoryStageOfTheCycle :
    (∃ t, exec .bubble (pipeline .default .bubble .bubble (.lb 3#5 1#5 0#12) .bubble 0x1FF#32 0#32 false) = .next t) ∧
    (∃ t, exec .bubble (pipeline .default .bubble .bubble (.lhu 3#5 1#5 0#12) .bubble 0x1FE#32 0#32 false) = .next t) ∧
    (∃ t, exec .bubble (pipeline .default .bubble .bubble (.lw 3#5 1#5 0#12) .bubble 0x1FC#32 0#32 false) = .next t) ∧
    (∃ t, exec .bubble (pipeline .default .bubble .bubble (.sw 1#5 2#5 0#12) .bubble 0x1FC#32 0#32 false) = .next t) ∧
    (∃ t, exec .bubble (pipeline { Config.default with memProbe := false } .bubble .bubble (.sb 1#5 2#5 0#12) .bubble
      0x1FF#32 0#32 false) = .next t) ∧
    dataMemory.wf = true :=
  ⟨⟨_, rfl⟩, ⟨_, rfl⟩, ⟨_, rfl⟩, ⟨_, rfl⟩, ⟨_, rfl⟩, rfl⟩

/-- The largest even offsets (`ExecuteStageOfTheOthers`, and the branch and jump statements). -/
theorem witness_even_offsets : (0x0FFE#13).getLsbD 0 = false ∧ (0x0FFFFE#21).getLsbD 0 = false := by decide

theorem witness_ExecuteStageOfMultiplyAndDivide :
    withM.mExt = true ∧ withM.divCorner = .fault ∧ withRiscv.mExt = true ∧ withRiscv.divCorner = .riscv ∧
    (1#32 ≠ 0#32 ∧ ¬(0x80000000#32 = 0x80000000#32 ∧ 1#32 = 0xFFFFFFFF#32)) := by decide

/-- A load of x5 in the execute stage and an instruction that reads x5 twice behind it. -/
def stalling : State := pipeline .default (.add 2#5 5#5 5#5) (.lw 5#5 0#5 0x100#12) .bubble .bubble 0#32 0#32 false

theorem witness_StallHoldsOneCycle :
    (∃ t, exec .bubble stalling = .next t) ∧ hazardDetect stalling = true ∧ stalling.exmem.taken = false :=
  ⟨⟨_, rfl⟩, by decide, rfl⟩

theorem witness_LoadUseSeesTheLoadedValue :
    stalling.idex.ctl = ctlOf stalling.idex.inst ∧ hazardDetect stalling = true ∧ stalling.exmem.taken = false ∧
    ∃ t u, exec .bubble stalling = .next t ∧ exec .bubble t = .next u ∧ u.idex.ctl.rs1 = stalling.idex.ctl.rd ∧
      u.idex.ctl.rs2 = stalling.idex.ctl.rd :=
  ⟨rfl, by decide, rfl, _, _, rfl, rfl, by decide, by decide⟩

theorem witness_ForwardingSelection :
    State.reset.idex.ctl.rs1 = 0#5 ∧ State.reset.idex.ctl.rs2 = 0#5 := by decide

theorem genuine (m : Bool) (i : Instr) (h : i.wellFormed m = true) : Genuine m (viewOf i) := ⟨i, h, rfl⟩

/-- A cache as created meets the cache invariant. -/
theorem created_cacheWf (c : Config) : CacheWf c (CacheState.created c) := by
  refine ⟨by simp [CacheState.created], ?_, by simp [CacheState.created], by simp [CacheState.created]⟩
  intro i S h
  simp only [CacheState.created, List.getElem?_replicate] at h
  split at h
  · cases h
    refine ⟨by simp, ?_, ?_, ?_⟩
    · intro l hl
      rw [List.eq_of_mem_replicate hl]
      simp [Line.created]
    · simp [List.pairwise_replicate, Line.created]
    · simp [List.pairwise_replicate, Line.created]
  · cases h

/-- Four instructions in flight meet the invariant. -/
theorem busy_inv : busy.Inv where
  config := rfl
  zeroRegister := rfl
  memory := ⟨rfl, rfl⟩
  views := ⟨genuine _ _ (by decide), genuine _ _ (by decide), genuine _ _ (by decide), genuine _ _ (by decide)⟩
  control := ⟨rfl, rfl, rfl, rfl⟩
  redirect := by intro h; cases h
  operands := fun _ => ⟨rfl, rfl⟩
  loadUse := by intro h; cases h
  counters := by decide
  cache := created_cacheWf _

theorem witness_OperandsAreInProgramOrder :
    busy.Inv ∧ busy.cfg.rfWbBeforeDecode = true ∧ ∃ m, memoryStage busy = .ok m := ⟨busy_inv, rfl, _, rfl⟩

theorem witness_StepKeepsTheInvariant : busy.Inv ∧ ∃ t, step busy = .next t := ⟨busy_inv, _, rfl⟩

/-- A taken branch in the memory stage. -/
def redirecting : State := pipeline .default (.sw 1#5 2#5 0#12) (.lw 5#5 1#5 0#12) (.beq 0#5 0#5 60#13) .bubble 0#32 0#32 true

theorem witness_RedirectDiscardsTheThreeYounger :
    redirecting.exmem.taken = true ∧ ∃ t u v w, exec .bubble redirecting = .next t ∧ exec (.add 3#5 1#5 2#5) t = .next u ∧
      exec .bubble u = .next v ∧ exec .bubble v = .next w := ⟨rfl, _, _, _, _, rfl, rfl, rfl, rfl⟩

theorem witness_FetchedInstructionOnlyEntersIfId :
    (∃ t, exec .bubble busy = .next t) ∧ (Instr.sw 1#5 2#5 0#12).admitted busy.cfg.mExt = true := ⟨⟨_, rfl⟩, rfl⟩

/-- One cache, and another with one probe made. -/
theorem witness_CacheIsNeverObserved :
    busy.cfg.valid = true ∧ CacheWf busy.cfg busy.cache ∧
    (∃ k r, probe Config.default busy.cache 0x1234#32 = .ok (k, r)) ∧ ∃ t, stepN 3 busy = .next t :=
  ⟨rfl, created_cacheWf _, ⟨_, _, rfl⟩, _, rfl⟩

/-- `Ready` and `ReadyForTransfer`, with the operand values of each clause of the arithmetic, ECALL and bubble
statements left free by them. -/
theorem witness_Ready : Ready (ready .default 0x1FC#32 0x1FE#32) ∧ Ready State.reset := by decide

/-- `LoadsComplete` and `StoresComplete`: the last byte, halfword and word of memory, and a store away from the fetched
words. -/
theorem witness_LoadsComplete :
    Ready (ready .default 0x1FC#32 0x1FE#32) ∧ (ready .default 0x1FC#32 0x1FE#32).cfg.valid = true ∧
    (ready .default 0x1FC#32 0x1FE#32).mem.wf = true ∧
    ((0x1FC#32 + (3#12).signExtend 32).toNat + 1 ≤ 0x200) ∧
    ((0x1FC#32 + (2#12).signExtend 32).toNat % 2 = 0 ∧ (0x1FC#32 + (2#12).signExtend 32).toNat + 2 ≤ 0x200) ∧
    ((0x1FC#32 + (0#12).signExtend 32).toNat % 4 = 0 ∧ (0x1FC#32 + (0#12).signExtend 32).toNat + 4 ≤ 0x200) ∧
    (0#32 + 12#32).toNat + 4 ≤ 0x1FC ∧ (0#32 + 16#32).toNat + 4 ≤ 0x1FC := by decide

theorem witness_LoadsComplete_cache :
    CacheWf (ready .default 0x1FC#32 0x1FE#32).cfg (ready .default 0x1FC#32 0x1FE#32).cache := created_cacheWf _

/-- A store that touches the word below the two fetched ones (the first disjuncts of `StoresComplete`). -/
theorem witness_StoresComplete_below :
    (8#32).toNat % 4 = 0 ∧ (8#32).toNat + 4 ≤ (0#32 + 12#32).toNat ∧ (8#32).toNat + 4 ≤ (0#32 + 16#32).toNat := by
  decide

/-- Misaligned at the last halfword, aligned at the first byte outside. -/
theorem witness_LoadsAndStoresFault :
    ReadyForTransfer (ready .default 0x1FF#32 0x200#32) ∧
    (ready .default 0x1FF#32 0x200#32).x.read 1#5 + (0#12).signExtend 32 = 0x1FF#32 ∧ (0x1FF#32).toNat % 2 ≠ 0 ∧
    (0x1FF#32).toNat % 4 ≠ 0 ∧
    (ready .default 0x1FF#32 0x200#32).x.read 2#5 + (0#12).signExtend 32 = 0x200#32 ∧
    ((0x200#32).toNat % 1 = 0 ∧ 0x200 < (0x200#32).toNat + 1) ∧ ((0x200#32).toNat % 2 = 0 ∧ 0x200 < (0x200#32).toNat + 2) ∧
    ((0x200#32).toNat % 4 = 0 ∧ 0x200 < (0x200#32).toNat + 4) := by decide

/-- Every clause of `TakenBranchesComplete` and `UntakenBranchesComplete`, at equal values and at the signed edge. -/
theorem witness_branches :
    Ready (ready .default 0x80000000#32 0x7FFFFFFF#32) ∧ Ready (ready .default 5#32 5#32) ∧
    (ready .default 5#32 5#32).x.read 1#5 = (ready .default 5#32 5#32).x.read 2#5 ∧
    (ready .default 0x80000000#32 0x7FFFFFFF#32).x.read 1#5 ≠ (ready .default 0x80000000#32 0x7FFFFFFF#32).x.read 2#5 ∧
    (0x80000000#32).toInt < (0x7FFFFFFF#32).toInt ∧ (5#32).toInt ≤ (5#32).toInt ∧
    (0x7FFFFFFF#32).toNat < (0x80000000#32).toNat ∧ (5#32).toNat ≤ (5#32).toNat := by decide

/-- The last word of memory as a target. -/
theorem witness_JalCompletes :
    ReadyForTransfer (ready .default 0x1FC#32 0#32) ∧ (0x1FC#21).getLsbD 0 = false ∧
    FetchesAt (ready .default 0x1FC#32 0#32) ((ready .default 0x1FC#32 0#32).pc + (0x1FC#21).signExtend 32) .bubble := by
  decide

theorem witness_JalrCompletes :
    ReadyForTransfer (ready .default 0x1FC#32 0#32) ∧
    FetchesAt (ready .default 0x1FC#32 0#32) ((ready .default 0x1FC#32 0#32).x.read 1#5 + (0#12).signExtend 32) .bubble := by
  decide

/-- Targets 2 and 0x200 of each kind of transfer, and operand values that take each branch. -/
theorem witness_BadTargetsFaultAtTheirFetch :
    ReadyForTransfer (ready .default 2#32 0x200#32) ∧ (2#13).getLsbD 0 = false ∧ (0x200#21).getLsbD 0 = false ∧
    ((0#32 + (2#13).signExtend 32).toNat % 4 ≠ 0 ∧ (2#32 + (0#12).signExtend 32).toNat % 4 ≠ 0) ∧
    ((0#32 + (0x200#21).signExtend 32).toNat % 4 = 0 ∧ 0x200 < (0#32 + (0x200#21).signExtend 32).toNat + 4) ∧
    ((0x200#32 + (0#12).signExtend 32).toNat % 4 = 0 ∧ 0x200 < (0x200#32 + (0#12).signExtend 32).toNat + 4) ∧
    (decide ((0#32 : Word) = 0#32) = true ∧ decide ((2#32 : Word) ≠ 0x200#32) = true ∧
      decide ((2#32).toInt < (0x200#32).toInt) = true ∧ decide ((2#32).toNat < (0x200#32).toNat) = true ∧
      decide ((2#32).toInt ≤ (0x200#32).toInt) = true ∧ decide ((2#32).toNat ≤ (0x200#32).toNat) = true) := by decide

theorem witness_EcallTerminates :
    Ready (ready .default 0#32 0#32) ∧ (ready .default 0#32 0#32).x.read 10#5 = 10#32 := by decide

theorem witness_EcallWithAnotherCodeFaults : Ready State.reset ∧ State.reset.x.read 10#5 ≠ 10#32 := by decide

/-- Every clause of `MultipliesComplete`, `DividesComplete` and `DivideCornersFault`. -/
theorem witness_divides :
    Ready (ready withM 0x80000000#32 1#32) ∧ Ready (ready withRiscv 0x80000000#32 0xFFFFFFFF#32) ∧
    ReadyForTransfer (ready withM 0x80000000#32 0xFFFFFFFF#32) ∧ ReadyForTransfer (ready withM 7#32 0#32) ∧
    (ready withM 0x80000000#32 1#32).x.read 2#5 ≠ 0#32 ∧
    ¬((ready withM 0x80000000#32 1#32).x.read 1#5 = 0x80000000#32 ∧
      (ready withM 0x80000000#32 1#32).x.read 2#5 = 0xFFFFFFFF#32) ∧
    ((ready withRiscv 0x80000000#32 0xFFFFFFFF#32).x.read 1#5 = 0x80000000#32 ∧
      (ready withRiscv 0x80000000#32 0xFFFFFFFF#32).x.read 2#5 = 0xFFFFFFFF#32) ∧
    (ready withM 7#32 0#32).x.read 2#5 = 0#32 :=
  ⟨by decide, by decide, by decide, by decide, by decide, by decide, by decide, by decide⟩

theorem witness_MultiplyAndDivideNeedTheExtension :
    (fetching .default 0x0220C1B3#32).status = .running ∧ (fetching .default 0x0220C1B3#32).cfg.mExt = false ∧
    (fetching .default 0x0220C1B3#32).pc.toNat % 4 = 0 ∧
    (fetchMemory (fetching .default 0x0220C1B3#32)).readWidth 0 .word = encode (.div 3#5 1#5 2#5) := by decide

/-- A hit, a miss and an eviction, of one set of three lines (`ProbeOutcomes`, `SecondProbeOfABlockHits`). -/
theorem witness_ProbeOutcomes :
    (∃ k, probe (oneSet .lru) { sets := [fullSet], hits := 1, misses := 3, evictions := 0 } 0xAF#32 = .ok (k, .hit)) ∧
    (∃ k, probe (oneSet .lru) (CacheState.created (oneSet .lru)) 0xD0#32 = .ok (k, .miss 0xD0#32)) ∧
    (∃ k, probe (oneSet .lfu) { sets := [fullSet], hits := 1, misses := 3, evictions := 0 } 0xD0#32 =
      .ok (k, .evict 0xB0#32 0xD0#32)) ∧
    tagOf (oneSet .lru) 0xDF#32 = tagOf (oneSet .lru) 0xD0#32 ∧ setOf (oneSet .lru) 0xDF#32 = setOf (oneSet .lru) 0xD0#32 :=
  ⟨⟨_, rfl⟩, ⟨_, rfl⟩, ⟨_, rfl⟩, by decide, by decide⟩

theorem witness_AddressDecomposition : (2 : Nat) + 30 ≤ 32 ∧ (0 : Nat) + 0 ≤ 32 := by decide

theorem witness_ProbeKeepsTheCacheInvariant :
    (oneSet .lfu).valid = true ∧ CacheWf (oneSet .lfu) (CacheState.created (oneSet .lfu)) := ⟨rfl, created_cacheWf _⟩

theorem witness_HostProbeChangesTheCacheOnly : ∃ u, hostProbe busy 0xFFFFFFFF#32 = .ok (u, .miss 0xFFFFFFF0#32) := ⟨_, rfl⟩

theorem witness_MemoryWriteThenRead : dataMemory.wf = true ∧ Memory.wf [] = true := by decide

/-- An image that names its last byte of memory twice, an image one byte outside, and a configuration out of each range. -/
theorem witness_LaunchGivesTheResetValues :
    (1 ≤ Config.default.ways ∧ Config.default.sBits + Config.default.bBits ≤ 32 ∧ 4 ≤ Config.default.memSize ∧
      Config.default.memSize ≤ 2 ^ 32 ∧ Config.default.exitArgReg ≠ 0#5) ∧
    (∀ cell ∈ [(0x1FF, 0xEE#8), (0x1FF, 0xFF#8)], cell.1 < Config.default.memSize) ∧
    ([(0x1FF, 0xEE#8), (0x1FF, 0xFF#8)] : List Host.Cell) = [(0x1FF, 0xEE#8)] ++ (0x1FF, 0xFF#8) :: [] ∧
    (∃ cell ∈ [(0x200, 0xFF#8)], Config.default.memSize ≤ cell.1) ∧
    ¬(1 ≤ 0) ∧ ¬(3 + 30 ≤ 32) ∧ ¬(4 ≤ 3) ∧ ¬(2 ^ 32 + 1 ≤ 2 ^ 32) ∧ ¬(0#5 ≠ 0#5) := by decide

/-- Log 11: of two cells with one address the later wins. -/
theorem test_launch_image :
    ((imageOf [(0x1FF, 0xEE#8), (0, 0x13#8), (0x1FF, 0xFF#8)]) = [(0, 0x13#8), (0x1FF, 0xFF#8)]) := by decide

theorem witness_LaunchMeetsTheInvariant :
    ∃ u, launch .default [(0x1FF, 0xFF#8)] (regs 1#32 2#32) 4#32 = .next u := ⟨_, rfl⟩

/-! ## Pseudo-instructions (R181) -/

/-- `li` in and out of ADDI's range: the edges, and a low part that ADDI takes as negative. -/
theorem test_pseudo_li :
    [Pseudo.li 5#5 0x7FF#32, .li 5#5 0xFFFFF800#32, .li 5#5 0x800#32, .li 5#5 0x12345FFF#32].map Pseudo.expand =
    [[.addi 5#5 0#5 0x7FF#12], [.addi 5#5 0#5 0x800#12], [.lui 5#5 1#20, .addi 5#5 5#5 0x800#12],
     [.lui 5#5 0x12346#20, .addi 5#5 5#5 0xFFF#12]] := by decide

/-- `nop` is 0x00000013 (R181, R342); `ble` and `ret` swap and fix their registers. -/
theorem test_pseudo_words :
    (Pseudo.nop.expand.map encode = [0x00000013#32]) ∧ (Pseudo.ble 1#5 2#5 16#13).expand = [.bge 2#5 1#5 16#13] ∧
    Pseudo.ret.expand = [.jalr 0#5 1#5 0#12] := by decide

/-- R181's last sentence: `csrr x1, mcycle`, `fence`, `ebreak`, `fmv.s f1, f2`, `flw f1, 0(x2)`. -/
theorem test_pseudo_rejected :
    [0xB00020F3#32, 0x0FF0000F#32, 0x00100073#32, 0x202100D3#32, 0x00012087#32].all refusedWord = true := by decide

theorem witness_PseudoInstructionsExpandIntoTheCore :
    (Instr.bge 2#5 1#5 0x0FFE#13 ∈ (Pseudo.ble 1#5 2#5 0x0FFE#13).expand ∧
      (Instr.bge 2#5 1#5 0x0FFE#13).offsetEven = true) ∧
    (-2048 ≤ (0xFFFFF800#32).toInt ∧ (0xFFFFF800#32).toInt ≤ 2047) ∧ (-2048 ≤ (0x7FF#32).toInt ∧ (0x7FF#32).toInt ≤ 2047) ∧
    (0x202100D3#32).extractLsb' 0 7 ∈ [0x0F#7, 0x07#7, 0x27#7, 0x43#7, 0x47#7, 0x4B#7, 0x4F#7, 0x53#7] ∧
    ((0x00100073#32).extractLsb' 0 7 = 0x73#7 ∧ (0x00100073#32 : Word) ≠ 0x00000073#32) := by decide

end Sys2Proof.Tests
end

/-! PROOFS. Register 0, and the cache invariant under a probe (10_state.md R41, R62). -/

namespace Sys2Proof.Machine

/-! ## Register 0 -/

/-- Settles O55: the write reaches the register it names, unless that is x0, and no other. -/
theorem registerZeroIsHardWired : Obligations.RegisterZeroIsHardWired := by
  intro x r q v
  refine ⟨x.read_zero, x.write_zero v, ?_⟩
  by_cases hr : r = 0#5
  · subst hr
    simp [x.write_zero]
  · by_cases hq : q = r
    · subst hq
      simp [x.read_write_same v hr, hr]
    · simp [x.read_write_other v hq, hq]

/-! ## The parts of a block address (48_cache_engine.md R472, R473) -/

section
variable (c : Config) (a : Word)

theorem blockOf_toNat : (blockOf c a).toNat = a.toNat / 2 ^ c.bBits * 2 ^ c.bBits := by
  have hle : a.toNat / 2 ^ c.bBits * 2 ^ c.bBits ≤ a.toNat := Nat.div_mul_le_self _ _
  simp [blockOf, Nat.shiftLeft_eq, Nat.shiftRight_eq_div_pow, Nat.mod_eq_of_lt (hle.trans_lt a.isLt)]

/-- Clearing the offset bits leaves the bits above them. -/
theorem blockOf_div : (blockOf c a).toNat / 2 ^ c.bBits = a.toNat / 2 ^ c.bBits := by
  rw [blockOf_toNat, Nat.mul_div_cancel _ (by positivity)]

@[simp] theorem setOf_blockOf : setOf c (blockOf c a) = setOf c a := by
  simp only [setOf, blockOf_div]

@[simp] theorem tagOf_blockOf : tagOf c (blockOf c a) = tagOf c a := by
  simp only [tagOf, pow_add, ← Nat.div_div_eq_div_mul, blockOf_div]

@[simp] theorem blockOf_blockOf : blockOf c (blockOf c a) = blockOf c a :=
  BitVec.eq_of_toNat_eq (by rw [blockOf_toNat, blockOf_div, ← blockOf_toNat])

theorem setOf_lt : setOf c a < 2 ^ c.sBits := Nat.mod_lt _ (by positivity)

end

/-! ## Lists with one entry replaced -/

/-- Replacing an entry keeps a pairwise relation that the new entry has to the entries before and after it. -/
theorem pairwise_set {α : Type} {R : α → α → Prop} {ls : List α} {i : Nat} {x : α} (h : ls.Pairwise R)
    (before : ∀ j l, j < i → ls[j]? = some l → R l x) (after : ∀ j l, i < j → ls[j]? = some l → R x l) :
    (ls.set i x).Pairwise R := by
  rw [List.pairwise_iff_getElem] at h ⊢
  intro j k hj hk hjk
  rw [List.length_set] at hj hk
  rw [List.getElem_set, List.getElem_set]
  split
  · next hij => rw [if_neg (by omega)]; exact after k _ (by omega) (List.getElem?_eq_getElem hk)
  · split
    · next hik => exact before j _ (by omega) (List.getElem?_eq_getElem hj)
    · exact h j k hj hk hjk

/-- Incrementing one entry increments the sum. -/
theorem sum_set_succ {ls : List Nat} {i n : Nat} (h : ls[i]? = some n) : (ls.set i (n + 1)).sum = ls.sum + 1 := by
  induction ls generalizing i with
  | nil => simp at h
  | cons m ls ih =>
    cases i with
    | zero =>
      obtain rfl : m = n := by simpa using h
      simp only [List.set_cons_zero, List.sum_cons]
      omega
    | succ i =>
      have hs := ih (i := i) (by simpa using h)
      simp only [List.set_cons_succ, List.sum_cons, hs]
      omega

/-! ## The line that a probe leaves -/

/-- What the three outcomes of a probe of `a` have in common: line `i` of the set `S` becomes `m`, a line of the block
of `a` with the newest timestamp, while no other valid line has the tag of `a` and all the lines before `i` are
valid. -/
structure Touches (c : Config) (S : CacheSet) (a : Word) (i : Nat) (m : Line) : Prop where
  index : i < S.lines.length
  valid : m.valid = true
  tag : m.tag = tagOf c a
  stamp : m.ts = S.clock + 1
  line : LineWf c (setOf c a) (S.clock + 1) m
  others : ∀ j l, j ≠ i → S.lines[j]? = some l → l.valid = true → l.tag ≠ tagOf c a
  before : ∀ j l, j < i → S.lines[j]? = some l → l.valid = true

/-- The line that a fill or an overwrite leaves is a line of the block of `a` (R477, R482). -/
theorem filledLine_lineWf (c : Config) (a : Word) (t : Nat) : LineWf c (setOf c a) t (filledLine c a t) :=
  fun _ => ⟨setOf_blockOf c a, tagOf_blockOf c a, blockOf_blockOf c a, le_rfl, le_rfl⟩

section
variable {c : Config} {S S' : CacheSet} {a : Word} {r : ProbeResult} {i : Nat}

/-- On a hit at line `l`, the touched line keeps the block of `l`. -/
theorem touches_of_hit {l : Line} (hwf : SetWf c (setOf c a) S) (hl : S.lines[i]? = some l) (hv : l.valid = true)
    (ht : l.tag = tagOf c a) : Touches c S a i { l with ts := S.clock + 1, count := l.count + 1 } := by
  obtain ⟨-, hlines, hdistinct, hfirst⟩ := hwf
  obtain ⟨hi, rfl⟩ := List.getElem?_eq_some_iff.1 hl
  obtain ⟨hset, htag, hblock, -, -⟩ := hlines _ (List.getElem_mem hi) hv
  rw [List.pairwise_iff_getElem] at hdistinct hfirst
  refine ⟨hi, hv, ht, rfl, fun _ => ⟨hset, htag, hblock, by simp, le_rfl⟩, ?_, ?_⟩
  · intro j l' hji hl' hv' ht'
    obtain ⟨hj, rfl⟩ := List.getElem?_eq_some_iff.1 hl'
    rcases Nat.lt_or_gt_of_ne hji with hlt | hgt
    · exact (hdistinct j i hj hi hlt hv' hv).1 (ht'.trans ht.symm)
    · exact (hdistinct i j hi hj hgt hv hv').1 (ht.trans ht'.symm)
  · intro j l' hji hl'
    obtain ⟨hj, rfl⟩ := List.getElem?_eq_some_iff.1 hl'
    exact hfirst j i hj hi hji hv

/-- On a miss, no valid line has the tag; the line written comes after valid lines alone. -/
theorem touches_of_miss (hnone : S.lines.findIdx? (fun l => l.valid && l.tag == tagOf c a) = none)
    (hi : i < S.lines.length) (hbefore : ∀ j l, j < i → S.lines[j]? = some l → l.valid = true) :
    Touches c S a i (filledLine c a (S.clock + 1)) := by
  refine ⟨hi, rfl, rfl, rfl, filledLine_lineWf c a _, ?_, hbefore⟩
  intro j l _ hl hv ht
  have hmem := List.findIdx?_eq_none_iff.1 hnone l (List.mem_of_getElem? hl)
  simp [hv, ht] at hmem

/-- A probe of a well-formed set touches one line of it and advances its clock. -/
theorem probeSet_touches (hwf : SetWf c (setOf c a) S) (h : probeSet c S a = .ok (S', r)) :
    ∃ i m, Touches c S a i m ∧ S' = { clock := S.clock + 1, lines := S.lines.set i m } := by
  rcases probeSet_ok_cases h with ⟨i, l, hfind, hl, -, hS'⟩ | ⟨hnone, i, hfind, -, hS'⟩ |
    ⟨hnone, hfull, v, l, -, hl, -, hS'⟩
  case inl =>
    obtain ⟨hi, hmatch, -⟩ := List.findIdx?_eq_some_iff_getElem.1 hfind
    obtain ⟨_, rfl⟩ := List.getElem?_eq_some_iff.1 hl
    obtain ⟨hv, ht⟩ := by simpa using hmatch
    exact ⟨i, _, touches_of_hit hwf hl hv ht, hS'⟩
  case inr.inl =>
    obtain ⟨hi, -, hfirst⟩ := List.findIdx?_eq_some_iff_getElem.1 hfind
    refine ⟨i, _, touches_of_miss hnone hi ?_, hS'⟩
    intro j l hji hl
    obtain ⟨_, rfl⟩ := List.getElem?_eq_some_iff.1 hl
    simpa using hfirst j hji
  case inr.inr =>
    obtain ⟨hv, -⟩ := List.getElem?_eq_some_iff.1 hl
    refine ⟨v, _, touches_of_miss hnone hv ?_, hS'⟩
    intro j m _ hm
    simpa using List.findIdx?_eq_none_iff.1 hfull m (List.mem_of_getElem? hm)

/-! ## The invariant of a set -/

/-- A line stays well formed while the clock of its set advances. -/
theorem lineWf_clock_succ {n t : Nat} {l : Line} (h : LineWf c n t l) : LineWf c n (t + 1) l := fun hv =>
  let ⟨hset, htag, hblock, hcount, hts⟩ := h hv
  ⟨hset, htag, hblock, hcount, hts.trans t.le_succ⟩

/-- Touching a line keeps the set well formed: its timestamp is newer than any other (R481). -/
theorem setWf_of_touches {m : Line} (hwf : SetWf c (setOf c a) S) (hm : Touches c S a i m) :
    SetWf c (setOf c a) { clock := S.clock + 1, lines := S.lines.set i m } := by
  obtain ⟨hlen, hlines, hdistinct, hfirst⟩ := hwf
  have hother : ∀ j l, j ≠ i → S.lines[j]? = some l → l.valid = true → l.tag ≠ m.tag ∧ l.ts ≠ m.ts := by
    intro j l hji hl hv
    obtain ⟨-, -, -, -, hts⟩ := hlines l (List.mem_of_getElem? hl) hv
    rw [hm.tag, hm.stamp]
    exact ⟨hm.others j l hji hl hv, by omega⟩
  refine ⟨by simpa using hlen, ?_, ?_, ?_⟩
  · intro l hl
    rcases List.mem_or_eq_of_mem_set hl with hmem | rfl
    · exact lineWf_clock_succ (hlines l hmem)
    · exact hm.line
  · refine pairwise_set hdistinct (fun j l hji hl hv _ => hother j l hji.ne hl hv) (fun j l hij hl _ hv => ?_)
    obtain ⟨htag, hts⟩ := hother j l hij.ne' hl hv
    exact ⟨htag.symm, hts.symm⟩
  · exact pairwise_set hfirst (fun j l hji hl _ => hm.before j l hji hl) (fun _ _ _ _ _ => hm.valid)

/-- A line that was valid is valid after a line was touched (R478). -/
theorem valid_of_touches {m l : Line} {j : Nat} (hm : Touches c S a i m) (hl : S.lines[j]? = some l)
    (hv : l.valid = true) : ∃ l', (S.lines.set i m)[j]? = some l' ∧ l'.valid = true := by
  by_cases hij : i = j
  · subst hij
    exact ⟨m, List.getElem?_set_self hm.index, hm.valid⟩
  · exact ⟨l, by rw [List.getElem?_set_ne hij, hl], hv⟩

end

/-! ## The invariant of the cache -/

/-- Every probe is counted as one hit or one miss, and an eviction as a miss too (R485). -/
theorem countProbe_counts (k : CacheState) (r : ProbeResult) :
    (countProbe k r).hits + (countProbe k r).misses = k.hits + k.misses + 1 ∧
    (k.evictions ≤ k.misses → (countProbe k r).evictions ≤ (countProbe k r).misses) := by
  cases r with
  | hit => exact ⟨by simp; omega, id⟩
  | miss a => exact ⟨by simp; omega, fun h => by simp; omega⟩
  | evict a b => exact ⟨by simp; omega, fun h => by simp; omega⟩

section
variable {c : Config} {k k' : CacheState} {a : Word} {r : ProbeResult}

/-- A probe of a well-formed cache touches one line of the set that the address names. -/
theorem probe_touches (hwf : CacheWf c k) (h : probe c k a = .ok (k', r)) :
    ∃ S i m, k.sets[setOf c a]? = some S ∧ SetWf c (setOf c a) S ∧ Touches c S a i m ∧
      k' = countProbe { k with
        sets := k.sets.set (setOf c a) { clock := S.clock + 1, lines := S.lines.set i m } } r := by
  obtain ⟨S, S', hS, hp, rfl⟩ := probe_ok_iff.1 h
  obtain ⟨-, hsets, -, -⟩ := hwf
  have hSwf := hsets _ S hS
  obtain ⟨i, m, hm, rfl⟩ := probeSet_touches hSwf hp
  exact ⟨S, i, m, hS, hSwf, hm, rfl⟩

/-- With at least one line per set, a probe of a well-formed cache finds its set and a line in it (R489). -/
theorem probe_total (hways : 1 ≤ c.ways) (hwf : CacheWf c k) : ∃ k' r, probe c k a = .ok (k', r) := by
  obtain ⟨hlen, hsets, -, -⟩ := hwf
  have hlt : setOf c a < k.sets.length := hlen ▸ setOf_lt c a
  have hS := List.getElem?_eq_getElem hlt
  obtain ⟨hlines, -⟩ := hsets _ _ hS
  have hne : k.sets[setOf c a].lines ≠ [] := List.ne_nil_of_length_pos (by omega)
  obtain ⟨S', r, hp⟩ := probeSet_total c _ a hne
  exact ⟨_, r, probe_ok_iff.2 ⟨_, S', hS, hp, rfl⟩⟩

/-- A probe keeps the cache well formed (R62, R485). -/
theorem probe_keeps_cacheWf (hwf : CacheWf c k) (h : probe c k a = .ok (k', r)) : CacheWf c k' := by
  obtain ⟨S, i, m, hS, hSwf, hm, rfl⟩ := probe_touches hwf h
  obtain ⟨hlen, hsets, hclock, hev⟩ := hwf
  obtain ⟨hcount, hevict⟩ := countProbe_counts
    { k with sets := k.sets.set (setOf c a) { clock := S.clock + 1, lines := S.lines.set i m } } r
  refine ⟨by simpa using hlen, ?_, ?_, hevict hev⟩
  · intro n T hT
    rw [countProbe_sets] at hT
    by_cases hn : setOf c a = n
    · subst hn
      rw [List.getElem?_set_self (List.getElem?_eq_some_iff.1 hS).1, Option.some.injEq] at hT
      exact hT ▸ setWf_of_touches hSwf hm
    · rw [List.getElem?_set_ne hn] at hT
      exact hsets n T hT
  · have hclockAt : (k.sets.map fun T => T.clock)[setOf c a]? = some S.clock := by simp [hS]
    rw [countProbe_sets, List.map_set, sum_set_succ hclockAt, hclock, hcount]

/-- A probe keeps every valid line valid (R478). -/
theorem probe_keeps_valid {n j : Nat} {T : CacheSet} {l : Line} (hwf : CacheWf c k) (h : probe c k a = .ok (k', r))
    (hT : k.sets[n]? = some T) (hl : T.lines[j]? = some l) (hv : l.valid = true) :
    ∃ T' l', k'.sets[n]? = some T' ∧ T'.lines[j]? = some l' ∧ l'.valid = true := by
  obtain ⟨S, i, m, hS, -, hm, rfl⟩ := probe_touches hwf h
  rw [countProbe_sets]
  by_cases hn : setOf c a = n
  · subst hn
    obtain rfl : S = T := Option.some.inj (hS.symm.trans hT)
    obtain ⟨l', hl', hv'⟩ := valid_of_touches hm hl hv
    exact ⟨_, l', List.getElem?_set_self (List.getElem?_eq_some_iff.1 hS).1, hl', hv'⟩
  · exact ⟨T, l, by rw [List.getElem?_set_ne hn, hT], hl, hv⟩

end

/-- Settles O52: a probe touches one line, with a new timestamp and a tag that no other valid line of its set has. -/
theorem probeKeepsTheCacheInvariant : Obligations.ProbeKeepsTheCacheInvariant := by
  intro c k a hvalid hwf
  have hways : 1 ≤ c.ways := by
    simp only [Config.valid, Bool.and_eq_true, decide_eq_true_eq] at hvalid
    omega
  obtain ⟨k', r, hp⟩ := probe_total (a := a) hways hwf
  exact ⟨k', r, hp, probe_keeps_cacheWf hwf hp, fun _ _ _ _ hS hl hv => probe_keeps_valid hwf hp hS hl hv⟩

end Sys2Proof.Machine

/-! PROOFS. Little-endian reads and writes, and the checks of an access (20_memory.md R103, R106 to R108). -/

namespace Sys2Proof.Machine

/-! ## Bits of a read, bytes of a write -/

/-- The bits below a byte put under `x` are those of that byte. -/
theorem getLsbD_append_byte_zero {w r : Nat} (x : BitVec w) (b : Byte) (hr : r < 8) :
    (x ++ b).getLsbD (8 * 0 + r) = b.getLsbD r := by
  simp [BitVec.getLsbD_append, hr]

/-- A byte put under `x` moves the bytes of `x` up by one. -/
theorem getLsbD_append_byte_succ {w j r : Nat} (x : BitVec w) (b : Byte) :
    (x ++ b).getLsbD (8 * (j + 1) + r) = x.getLsbD (8 * j + r) := by
  rw [BitVec.getLsbD_append, if_neg (by omega), show 8 * (j + 1) + r - 8 = 8 * j + r by omega]

/-- Bit `r` of byte `j` of a little-endian read is bit `r` of the byte `j` addresses on (R103). -/
theorem Memory.getLsbD_readWidth {m : Memory} {a j r : Nat} {n : Width} (hj : j < n.bytes) (hr : r < 8) :
    (m.readWidth a n).getLsbD (8 * j + r) = (m.byte (a + j)).getLsbD r := by
  cases n <;> simp only [Width.bytes] at hj <;> simp only [Memory.readWidth]
  case none => omega
  case byte =>
    obtain rfl : j = 0 := by omega
    rw [BitVec.getLsbD_setWidth, decide_eq_true (by omega), Bool.true_and, Nat.mul_zero, Nat.zero_add, Nat.add_zero]
  case half =>
    rw [BitVec.getLsbD_setWidth, decide_eq_true (by omega), Bool.true_and]
    match j, hj with
    | 0, _ => exact getLsbD_append_byte_zero _ _ hr
    | 1, _ => rw [getLsbD_append_byte_succ, Nat.mul_zero, Nat.zero_add]
  case word =>
    match j, hj with
    | 0, _ => exact getLsbD_append_byte_zero _ _ hr
    | 1, _ => rw [getLsbD_append_byte_succ, getLsbD_append_byte_zero _ _ hr]
    | 2, _ => rw [getLsbD_append_byte_succ, getLsbD_append_byte_succ, getLsbD_append_byte_zero _ _ hr]
    | 3, _ =>
      rw [getLsbD_append_byte_succ, getLsbD_append_byte_succ, getLsbD_append_byte_succ, Nat.mul_zero, Nat.zero_add]

/-- A read has no bit above the bytes it covers: it is zero-extended (R103). -/
theorem Memory.getLsbD_readWidth_of_ge {m : Memory} {a i : Nat} {n : Width} (hi : 8 * n.bytes ≤ i) :
    (m.readWidth a n).getLsbD i = false := by
  cases n <;> simp only [Width.bytes] at hi <;>
    simp only [Memory.readWidth, BitVec.zeroExtend, BitVec.getLsbD_setWidth]
  case none => exact BitVec.getLsbD_zero
  case byte | half => rw [BitVec.getLsbD_of_ge _ _ hi, Bool.and_false]
  case word => exact BitVec.getLsbD_of_ge _ _ hi

/-- A write sets byte `k` of the bytes it covers to bits `8 * k` to `8 * k + 7` of the value (R103). -/
theorem Memory.byte_writeWidth_inside {m : Memory} (h : m.wf = true) (a : Nat) (v : Word) (n : Width) (k : Nat)
    (hk : k < n.bytes) : (m.writeWidth a v n).byte (a + k) = v.extractLsb' (8 * k) 8 := by
  have hw1 := Memory.wf_put h a (v.extractLsb' 0 8)
  have hw2 := Memory.wf_put hw1 (a + 1) (v.extractLsb' 8 8)
  have hw3 := Memory.wf_put hw2 (a + 2) (v.extractLsb' 16 8)
  cases n <;> simp only [Width.bytes] at hk <;> simp only [Memory.writeWidth]
  case none => omega
  case byte =>
    obtain rfl : k = 0 := by omega
    simp [Memory.byte_put h]
  case half => interval_cases k <;> simp [Memory.byte_put hw1, Memory.byte_put h]
  case word =>
    interval_cases k <;>
      simp [Memory.byte_put hw3, Memory.byte_put hw2, Memory.byte_put hw1, Memory.byte_put h]

/-- A read of bytes that hold the low bytes of `v` gives those bytes of `v`, zero-extended. -/
theorem Memory.readWidth_of_bytes {m : Memory} {a : Nat} {v : Word} {n : Width}
    (h : ∀ k < n.bytes, m.byte (a + k) = v.extractLsb' (8 * k) 8) :
    m.readWidth a n = v &&& BitVec.ofNat 32 (2 ^ (8 * n.bytes) - 1) := by
  refine BitVec.eq_of_getLsbD_eq fun i hi => ?_
  rw [BitVec.getLsbD_and, BitVec.getLsbD_ofNat, Nat.testBit_two_pow_sub_one]
  by_cases hin : i < 8 * n.bytes
  · have hj : i / 8 < n.bytes := by omega
    have hr : i % 8 < 8 := Nat.mod_lt i (by decide)
    have hbit := Memory.getLsbD_readWidth (m := m) (a := a) hj hr
    rw [h _ hj, BitVec.getLsbD_extractLsb', Nat.div_add_mod] at hbit
    rw [hbit, decide_eq_true hr, decide_eq_true hi, decide_eq_true hin]
    simp only [Bool.true_and, Bool.and_true]
  · simp [hin, Memory.getLsbD_readWidth_of_ge (not_lt.1 hin)]

/-- Settles O54: the write sets each of its bytes, and a read of those bytes gives the value back bit by bit. -/
theorem memoryWriteThenRead : Obligations.MemoryWriteThenRead := by
  intro m a v n hwf
  have hbytes := Memory.byte_writeWidth_inside hwf a v n
  exact ⟨⟨rfl, rfl, rfl⟩, Memory.wf_writeWidth hwf a v n, hbytes, Memory.byte_writeWidth_outside hwf a v n,
    Memory.readWidth_of_bytes hbytes⟩

/-! ## The order of the checks -/

section
variable {size : Nat} {k : AccessKind} {a : Word} {n : Nat}

theorem checkAccess_of_misaligned (h : a.toNat % n ≠ 0) : checkAccess size k a n = some (.misaligned k a n) :=
  if_pos h

theorem checkAccess_of_out_of_bounds (ha : a.toNat % n = 0) (hb : size < a.toNat + n) :
    checkAccess size k a n = some (.bounds k a n) := by
  rw [checkAccess, if_neg (not_not_intro ha), if_pos hb]

end

section
variable {size : Nat} {k : AccessKind} {a : Word} {n : Width} (m : Memory)

theorem memRead_of_fault {f : Fault} (h : checkAccess size k a n.bytes = some f) :
    memRead size m k a n = .error f := by
  simp [memRead, h]

theorem memWrite_of_fault {f : Fault} (v : Word) (h : checkAccess size .store a n.bytes = some f) :
    memWrite size m a n v = .error f := by
  simp [memWrite, h]

theorem memRead_of_pass (h : checkAccess size k a n.bytes = none) :
    memRead size m k a n = .ok (m.readWidth a.toNat n) := by
  simp [memRead, h]

theorem memWrite_of_pass (v : Word) (h : checkAccess size .store a n.bytes = none) :
    memWrite size m a n v = .ok (m.writeWidth a.toNat v n) := by
  simp [memWrite, h]

end

/-- Settles O10: a read and a write make the same check, which tests alignment before bounds. -/
theorem accessesAreChecked : Obligations.AccessesAreChecked := by
  intro size m kind a v n _
  refine ⟨fun h => ?misaligned, fun ha hb => ?bounds, fun ha hb => ?whole⟩
  case misaligned =>
    exact ⟨memRead_of_fault m (checkAccess_of_misaligned h), memWrite_of_fault m v (checkAccess_of_misaligned h)⟩
  case bounds =>
    exact ⟨memRead_of_fault m (checkAccess_of_out_of_bounds ha hb),
      memWrite_of_fault m v (checkAccess_of_out_of_bounds ha hb)⟩
  case whole =>
    exact ⟨memRead_of_pass m (checkAccess_none_iff.2 ⟨ha, hb⟩),
      memWrite_of_pass m v (checkAccess_none_iff.2 ⟨ha, hb⟩)⟩

end Sys2Proof.Machine

/-! PROOFS. The immediates of R170, and the decoder against the opcode table (30_encoding.md R150, R151). -/

namespace Sys2Proof

/-! ## Range and parity of an immediate (R170) -/

/-- A sign-extended immediate has the range of its own width. -/
theorem toInt_signExtend_word_mem {n : Nat} (x : BitVec n) (hn : n ≤ 32) :
    -2 ^ (n - 1) ≤ (x.signExtend 32).toInt ∧ (x.signExtend 32).toInt < 2 ^ (n - 1) := by
  rw [BitVec.toInt_signExtend_of_le hn]
  exact ⟨BitVec.le_toInt x, BitVec.toInt_lt⟩

/-- A sign-extended offset whose bit 0 is appended as 0 is twice what its other bits give. -/
theorem toInt_signExtend_append_zero {n : Nat} (x : BitVec n) (hn : n + 1 ≤ 32) :
    ((x ++ 0#1).signExtend 32).toInt = 2 * x.toInt := by
  rw [BitVec.toInt_signExtend_of_le hn, BitVec.toInt_append_zero, pow_one]

/-- An even signed value has an even unsigned value. -/
theorem toNat_even_of_toInt {x : Word} {z : Int} (h : x.toInt = 2 * z) : x.toNat % 2 = 0 := by
  rw [BitVec.toInt_eq_toNat_cond] at h
  split at h <;> omega

/-- A branch or jump offset is even, within the range that its bits above bit 0 give. -/
theorem even_offset_mem {n : Nat} (x : BitVec n) (hn : n + 1 ≤ 32) :
    2 * -2 ^ (n - 1) ≤ ((x ++ 0#1).signExtend 32).toInt ∧
    ((x ++ 0#1).signExtend 32).toInt ≤ 2 * (2 ^ (n - 1) - 1) ∧ ((x ++ 0#1).signExtend 32).toNat % 2 = 0 := by
  have htwice := toInt_signExtend_append_zero x hn
  have hlow := BitVec.le_toInt x
  have hhigh := BitVec.toInt_lt (x := x)
  exact ⟨by omega, by omega, toNat_even_of_toInt htwice⟩

/-- Zeros appended below `x` make a multiple of a power of two. -/
theorem toNat_append_zero_mod {n m : Nat} (x : BitVec n) : (x ++ 0#m).toNat % 2 ^ m = 0 := by
  simp [BitVec.toNat_append, Nat.shiftLeft_eq]

/-- Settles O5: the arrangements are the definition of `immOf`; the ranges are those of the bits that are extended. -/
theorem immediateOfEveryFormat : Obligations.ImmediateOfEveryFormat := by
  intro w
  refine ⟨rfl, rfl, rfl, rfl, rfl, rfl, rfl, rfl, rfl, rfl, ?signed12, ?shamt, ?branch, ?upper, ?jump⟩
  case signed12 =>
    have hmem (x : BitVec 12) : -2048 ≤ (x.signExtend 32).toInt ∧ (x.signExtend 32).toInt ≤ 2047 := by
      have h := toInt_signExtend_word_mem x (by decide)
      omega
    intro f hf
    fin_cases hf
    · exact hmem (fieldImmI w)
    · exact hmem (fieldImmI w)
    · exact hmem (fieldImmS w)
  case shamt =>
    have h := (fieldRs2 w).isLt
    simp only [immOf, BitVec.zeroExtend, BitVec.toNat_setWidth]
    omega
  case branch => exact even_offset_mem (n := 12) _ (by decide)
  case upper => exact toNat_append_zero_mod (m := 12) (fieldImmU w)
  case jump => exact even_offset_mem (n := 20) _ (by decide)

/-! ## A row of the opcode table, by the fields of a word -/

/-- Both parts of a concatenation are known from it. -/
theorem append_inj {n m : Nat} {a a' : BitVec n} {b b' : BitVec m} (h : a ++ b = a' ++ b') : a = a' ∧ b = b' := by
  have hhigh := congrArg (BitVec.extractLsb' m n) h
  have hlow := congrArg (BitVec.extractLsb' 0 m) h
  rw [BitVec.extractLsb'_append_eq_left, BitVec.extractLsb'_append_eq_left] at hhigh
  rw [BitVec.extractLsb'_append_eq_right, BitVec.extractLsb'_append_eq_right] at hlow
  exact ⟨hhigh, hlow⟩

/-- Two words agree in the opcode and the function codes of a format (R142); formats SYS and NONE fix every bit. -/
def AgreeOnCodes (f : Format) (w v : Word) : Prop :=
  match f with
  | .R | .IS => fieldFunct7 w = fieldFunct7 v ∧ fieldFunct3 w = fieldFunct3 v ∧ fieldOpcode w = fieldOpcode v
  | .I | .L | .S | .B => fieldFunct3 w = fieldFunct3 v ∧ fieldOpcode w = fieldOpcode v
  | .U | .J => fieldOpcode w = fieldOpcode v
  | .SYS | .NONE => w = v

/-- The bits of a word that select a row of the format; `maskOf_eq_maskOfFormat` ties it to the table (R150). -/
def maskOfFormat : Format → Word
  | .R | .IS => 0xFE00707F#32
  | .I | .L | .S | .B => 0x0000707F#32
  | .U | .J => 0x0000007F#32
  | .SYS | .NONE => 0xFFFFFFFF#32

theorem maskOf_eq_maskOfFormat (k : Mnemonic) : maskOf k = maskOfFormat k.fmt := by
  cases k <;> rfl

/-- `match` has no bit outside `mask`. -/
theorem matchOf_and_maskOf (k : Mnemonic) : matchOf k &&& maskOf k = matchOf k := by
  cases k <;> rfl

/-- Under the mask of a format two words are the same when they agree in the codes of the format. -/
theorem and_maskOfFormat_eq_iff (f : Format) (w v : Word) :
    w &&& maskOfFormat f = v &&& maskOfFormat f ↔ AgreeOnCodes f w v := by
  cases f <;> simp only [maskOfFormat, AgreeOnCodes]
  case R | IS =>
    rw [mask_funct7, mask_funct7]
    refine ⟨fun h => ?_, fun ⟨h7, h3, hop⟩ => by rw [h7, h3, hop]⟩
    obtain ⟨h, hop⟩ := append_inj (n := 25) h
    obtain ⟨h, -⟩ := append_inj (n := 20) h
    obtain ⟨h, h3⟩ := append_inj (n := 17) h
    exact ⟨(append_inj h).1, h3, hop⟩
  case I | L | S | B =>
    rw [mask_funct3, mask_funct3]
    refine ⟨fun h => ?_, fun ⟨h3, hop⟩ => by rw [h3, hop]⟩
    obtain ⟨h, hop⟩ := append_inj (n := 25) h
    obtain ⟨h, -⟩ := append_inj (n := 20) h
    exact ⟨(append_inj h).2, hop⟩
  case U | J =>
    rw [mask_opcode, mask_opcode]
    exact ⟨fun h => (append_inj (n := 25) h).2, fun hop => by rw [hop]⟩
  case SYS | NONE => rw [mask_word, mask_word]

/-- A word belongs to the row `k` when it has the codes of `matchOf k` (R150). -/
theorem matchesRow_iff (k : Mnemonic) (w : Word) : matchesRow k w = true ↔ AgreeOnCodes k.fmt w (matchOf k) := by
  rw [matchesRow, decide_eq_true_iff, ← and_maskOfFormat_eq_iff, ← maskOf_eq_maskOfFormat, matchOf_and_maskOf]

/-! ## The decoder, by the opcode of a word -/

section
variable {mExt : Bool} {w : Word}

theorem ne_zero_of_fieldOpcode {op : BitVec 7} (h : fieldOpcode w = op) (hop : op ≠ 0#7) : w ≠ 0x00000000#32 := by
  rintro rfl
  exact hop h.symm

theorem decode_zero : decode mExt 0x00000000#32 = .ok .bubble := rfl

theorem decode_op (h : fieldOpcode w = 0x33#7) :
    decode mExt w = decodeOp mExt (fieldFunct7 w) (fieldFunct3 w) (fieldRd w) (fieldRs1 w) (fieldRs2 w) := by
  rw [decode, if_neg (ne_zero_of_fieldOpcode h (by decide)), h]
  rfl

theorem decode_opImm (h : fieldOpcode w = 0x13#7) :
    decode mExt w =
      decodeOpImm (fieldFunct7 w) (fieldFunct3 w) (fieldRd w) (fieldRs1 w) (fieldRs2 w) (fieldImmI w) := by
  rw [decode, if_neg (ne_zero_of_fieldOpcode h (by decide)), h]
  rfl

theorem decode_load (h : fieldOpcode w = 0x03#7) :
    decode mExt w = decodeLoad (fieldFunct3 w) (fieldRd w) (fieldRs1 w) (fieldImmI w) := by
  rw [decode, if_neg (ne_zero_of_fieldOpcode h (by decide)), h]
  rfl

theorem decode_store (h : fieldOpcode w = 0x23#7) :
    decode mExt w = decodeStore (fieldFunct3 w) (fieldRs1 w) (fieldRs2 w) (fieldImmS w) := by
  rw [decode, if_neg (ne_zero_of_fieldOpcode h (by decide)), h]
  rfl

theorem decode_branch (h : fieldOpcode w = 0x63#7) :
    decode mExt w = decodeBranch (fieldFunct3 w) (fieldRs1 w) (fieldRs2 w) (fieldImmB w) := by
  rw [decode, if_neg (ne_zero_of_fieldOpcode h (by decide)), h]
  rfl

theorem decode_lui (h : fieldOpcode w = 0x37#7) : decode mExt w = .ok (.lui (fieldRd w) (fieldImmU w)) := by
  rw [decode, if_neg (ne_zero_of_fieldOpcode h (by decide)), h]
  rfl

theorem decode_auipc (h : fieldOpcode w = 0x17#7) : decode mExt w = .ok (.auipc (fieldRd w) (fieldImmU w)) := by
  rw [decode, if_neg (ne_zero_of_fieldOpcode h (by decide)), h]
  rfl

theorem decode_jal (h : fieldOpcode w = 0x6F#7) : decode mExt w = .ok (.jal (fieldRd w) (fieldImmJ w)) := by
  rw [decode, if_neg (ne_zero_of_fieldOpcode h (by decide)), h]
  rfl

theorem decode_jalr (h : fieldOpcode w = 0x67#7) (h3 : fieldFunct3 w = 0#3) :
    decode mExt w = .ok (.jalr (fieldRd w) (fieldRs1 w) (fieldImmI w)) := by
  rw [decode, if_neg (ne_zero_of_fieldOpcode h (by decide)), h]
  exact if_pos h3

theorem decode_ecall : decode mExt 0x00000073#32 = .ok .ecall := rfl

/-! ## Every word of an admitted row decodes to its instruction -/

/-- A word that matches a row of the instruction set decodes to an instruction of that row (R150, R151). -/
theorem decode_of_matchesRow {k : Mnemonic} (h : matchesRow k w = true) (hM : k.isM = true → mExt = true) :
    ∃ i, decode mExt w = .ok i ∧ i.mnemonic = k := by
  have hcodes := (matchesRow_iff k w).1 h
  cases k with
  | add | sub | sll | slt | sltu | xor | srl | sra | or | and =>
    obtain ⟨h7, h3, hop⟩ := hcodes
    exact ⟨_, by rw [decode_op hop, h7, h3]; rfl, rfl⟩
  | mul | mulh | mulhsu | mulhu | div | divu | rem | remu =>
    obtain ⟨h7, h3, hop⟩ := hcodes
    obtain rfl := hM rfl
    exact ⟨_, by rw [decode_op hop, h7, h3]; rfl, rfl⟩
  | addi | slti | sltiu | xori | ori | andi =>
    obtain ⟨h3, hop⟩ := hcodes
    exact ⟨_, by rw [decode_opImm hop, h3]; rfl, rfl⟩
  | slli | srli | srai =>
    obtain ⟨h7, h3, hop⟩ := hcodes
    exact ⟨_, by rw [decode_opImm hop, h7, h3]; rfl, rfl⟩
  | lb | lh | lw | lbu | lhu =>
    obtain ⟨h3, hop⟩ := hcodes
    exact ⟨_, by rw [decode_load hop, h3]; rfl, rfl⟩
  | sb | sh | sw =>
    obtain ⟨h3, hop⟩ := hcodes
    exact ⟨_, by rw [decode_store hop, h3]; rfl, rfl⟩
  | beq | bne | blt | bge | bltu | bgeu =>
    obtain ⟨h3, hop⟩ := hcodes
    exact ⟨_, by rw [decode_branch hop, h3]; rfl, rfl⟩
  | lui => exact ⟨_, decode_lui hcodes, rfl⟩
  | auipc => exact ⟨_, decode_auipc hcodes, rfl⟩
  | jal => exact ⟨_, decode_jal hcodes, rfl⟩
  | jalr =>
    obtain ⟨h3, hop⟩ := hcodes
    exact ⟨_, decode_jalr hop h3, rfl⟩
  | ecall =>
    obtain rfl : w = 0x00000073#32 := hcodes
    exact ⟨_, decode_ecall, rfl⟩
  | bubble =>
    obtain rfl : w = 0x00000000#32 := hcodes
    exact ⟨_, decode_zero, rfl⟩

/-! ## Every word that decodes is of an admitted row -/

/-- The word belongs to the row `k`, and the machine has that row (R150): the right side of O3's equivalence. -/
def RowAdmits (mExt : Bool) (w : Word) (k : Mnemonic) : Prop :=
  matchesRow k w = true ∧ (k.isM = true → mExt = true)

theorem rowAdmits_of_codes {k : Mnemonic} (hk : k.isM = false) (h : AgreeOnCodes k.fmt w (matchOf k)) :
    RowAdmits mExt w k :=
  ⟨(matchesRow_iff k w).2 h, fun hM => by simp [hk] at hM⟩

variable {rd rs1 rs2 : Reg} {i : Instr}

theorem rowAdmits_of_decodeOp (hop : fieldOpcode w = 0x33#7)
    (h : decodeOp mExt (fieldFunct7 w) (fieldFunct3 w) rd rs1 rs2 = .ok i) : RowAdmits mExt w i.mnemonic := by
  unfold decodeOp at h
  split_ifs at h with hbase halt hmul hM
  · split at h <;> rename_i h3 <;> cases h
    all_goals
      dsimp only [Instr.mnemonic]
      exact rowAdmits_of_codes rfl ⟨hbase, h3, hop⟩
  · split at h <;> rename_i h3 <;> cases h
    all_goals
      dsimp only [Instr.mnemonic]
      exact rowAdmits_of_codes rfl ⟨halt, h3, hop⟩
  · split at h <;> rename_i h3 <;> cases h
    all_goals
      dsimp only [Instr.mnemonic]
      exact ⟨(matchesRow_iff _ w).2 ⟨hmul, h3, hop⟩, fun _ => hM⟩

theorem rowAdmits_of_decodeOpImm {shamt : BitVec 5} {imm : BitVec 12} (hop : fieldOpcode w = 0x13#7)
    (h : decodeOpImm (fieldFunct7 w) (fieldFunct3 w) rd rs1 shamt imm = .ok i) : RowAdmits mExt w i.mnemonic := by
  unfold decodeOpImm at h
  split at h <;> rename_i h3
  case h_2 =>
    split_ifs at h with h7
    cases h
    exact rowAdmits_of_codes (k := .slli) rfl ⟨h7, h3, hop⟩
  case h_6 =>
    split_ifs at h with hlogical harith <;> cases h
    · exact rowAdmits_of_codes (k := .srli) rfl ⟨hlogical, h3, hop⟩
    · exact rowAdmits_of_codes (k := .srai) rfl ⟨harith, h3, hop⟩
  all_goals cases h
  all_goals
    dsimp only [Instr.mnemonic]
    exact rowAdmits_of_codes rfl ⟨h3, hop⟩

theorem rowAdmits_of_decodeLoad {imm : BitVec 12} (hop : fieldOpcode w = 0x03#7)
    (h : decodeLoad (fieldFunct3 w) rd rs1 imm = .ok i) : RowAdmits mExt w i.mnemonic := by
  unfold decodeLoad at h
  split at h <;> rename_i h3 <;> cases h
  all_goals
    dsimp only [Instr.mnemonic]
    exact rowAdmits_of_codes rfl ⟨h3, hop⟩

theorem rowAdmits_of_decodeStore {imm : BitVec 12} (hop : fieldOpcode w = 0x23#7)
    (h : decodeStore (fieldFunct3 w) rs1 rs2 imm = .ok i) : RowAdmits mExt w i.mnemonic := by
  unfold decodeStore at h
  split at h <;> rename_i h3 <;> cases h
  all_goals
    dsimp only [Instr.mnemonic]
    exact rowAdmits_of_codes rfl ⟨h3, hop⟩

theorem rowAdmits_of_decodeBranch {off : BitVec 13} (hop : fieldOpcode w = 0x63#7)
    (h : decodeBranch (fieldFunct3 w) rs1 rs2 off = .ok i) : RowAdmits mExt w i.mnemonic := by
  unfold decodeBranch at h
  split at h <;> rename_i h3 <;> cases h
  all_goals
    dsimp only [Instr.mnemonic]
    exact rowAdmits_of_codes rfl ⟨h3, hop⟩

/-- A word that decodes matches the row of its instruction, and the machine has that row (R150, R160). -/
theorem rowAdmits_of_decode (h : decode mExt w = .ok i) : RowAdmits mExt w i.mnemonic := by
  unfold decode at h
  split at h
  case isTrue hw => cases h; exact rowAdmits_of_codes rfl hw
  split at h <;> rename_i hop
  · exact rowAdmits_of_decodeOp hop h
  · exact rowAdmits_of_decodeOpImm hop h
  · exact rowAdmits_of_decodeLoad hop h
  · exact rowAdmits_of_decodeStore hop h
  · exact rowAdmits_of_decodeBranch hop h
  · cases h; exact rowAdmits_of_codes rfl hop
  · cases h; exact rowAdmits_of_codes rfl hop
  · cases h; exact rowAdmits_of_codes rfl hop
  · split at h <;> rename_i h3 <;> cases h
    exact rowAdmits_of_codes (k := .jalr) rfl ⟨h3, hop⟩
  · split at h <;> rename_i hw <;> cases h
    exact rowAdmits_of_codes rfl hw
  · cases h

end

/-- Two rows that match one word are the same row: the machine with `M_EXT` decodes the word to both. -/
theorem matchesRow_unique {w : Word} {j k : Mnemonic} (hj : matchesRow j w = true) (hk : matchesRow k w = true) :
    j = k := by
  obtain ⟨i, hi, rfl⟩ := decode_of_matchesRow (mExt := true) hj (fun _ => rfl)
  obtain ⟨i', hi', rfl⟩ := decode_of_matchesRow (mExt := true) hk (fun _ => rfl)
  exact congrArg Instr.mnemonic (Except.ok.inj (hi.symm.trans hi'))

/-- Settles O3: the decoder reads the codes that the masks of the rows cover, and answers one instruction at most. -/
theorem decodeAdmitsExactlyTheRows : Obligations.DecodeAdmitsExactlyTheRows := by
  refine ⟨fun mExt w k => ⟨?_, fun ⟨hrow, hM⟩ => decode_of_matchesRow hrow hM⟩, fun w j k => matchesRow_unique⟩
  rintro ⟨i, hi, rfl⟩
  exact rowAdmits_of_decode hi

end Sys2Proof

/-! PROOFS. The order of faults, writeback, probes and control signals of a cycle (40_pipeline_engine.md R205, R206,
R222, R230, R251). -/

namespace Sys2Proof.Machine

/-! ## A state that is not running (R251) -/

section
variable {s : State} (h : s.status ≠ .running)
include h

theorem step_of_not_running : step s = .refused .notRunning := by
  unfold step
  cases hs : s.status with
  | running => exact absurd hs h
  | terminated => rfl
  | faulted f => rfl

theorem exec_of_not_running (i : Instr) : exec i s = .refused .notRunning := by
  rw [exec_eq_enterPipeline, enterPipeline]
  cases hs : s.status with
  | running => exact absurd hs h
  | terminated => rfl
  | faulted f => rfl

end

/-- Settles O9: both match on the status before anything else, and the report of a refusal carries the state. -/
theorem notRunningIsRefused : Obligations.NotRunningIsRefused := by
  intro s i h
  have hstep := step_of_not_running h
  exact ⟨hstep, exec_of_not_running h i, by rw [advanceCycle, hstep]⟩

/-! ## The first fault of a cycle (R205) -/

section
variable {s : State} {v : InstructionView} {f : Fault}

theorem cycle_of_execute_fault (he : executeStage s.cfg s.idex (forward1 s).1 (forward2 s).1 = .error f) :
    cycle v s = .error f := by
  rw [cycle, he]

theorem cycle_of_memory_fault {e : ExMemLatch}
    (he : executeStage s.cfg s.idex (forward1 s).1 (forward2 s).1 = .ok e) (hm : memoryStage s = .error f) :
    cycle v s = .error f := by
  rw [cycle, he, hm]

theorem cycle_of_writeback_fault {e : ExMemLatch} {m : MemOut}
    (he : executeStage s.cfg s.idex (forward1 s).1 (forward2 s).1 = .ok e) (hm : memoryStage s = .ok m)
    (hw : writebackStage s = .error f) : cycle v s = .error f := by
  rw [cycle, he, hm, hw]

/-- The fetch stage reads the memory of the start of the cycle when the memory stage raises (R204, R205). -/
theorem fetchMemory_of_error (hm : memoryStage s = .error f) : fetchMemory s = s.mem := by
  rw [fetchMemory, hm]
  exact ite_self _

end

section
variable {s : State} {i : Instr} {f : Fault}

/-- A fault of the cycle is the fault of the instruction that the fetch stage delivers. -/
theorem exec_of_cycle_fault (hrun : s.status = .running) (hadm : i.admitted s.cfg.mExt = true)
    (hc : cycle (viewOf i) s = .error f) : exec i s = .fault f := by
  rw [exec_eq_enterPipeline, enterPipeline, hrun, hc]
  exact if_pos hadm

theorem step_of_fetch_fault (hrun : s.status = .running) (hf : fetchInstr s = .error f) : step s = .fault f := by
  rw [step, hrun, hf]

theorem step_of_fetch (hrun : s.status = .running) (hf : fetchInstr s = .ok i) : step s = exec i s := by
  rw [step, hrun, hf]

/-- The fetch stage delivers instructions that the machine has, and no others (R160). -/
theorem admitted_of_fetchInstr (hf : fetchInstr s = .ok i) : i.admitted s.cfg.mExt = true := by
  obtain ⟨-, -, hdecode⟩ := fetchInstr_ok_iff.1 hf
  obtain ⟨-, hM⟩ := rowAdmits_of_decode hdecode
  cases hisM : i.mnemonic.isM with
  | false => simp [Instr.admitted, hisM]
  | true => simp [Instr.admitted, hM hisM]

/-- After a fetch that does not raise, a fault of the later stages is the fault of the step. -/
theorem step_of_cycle_fault (hrun : s.status = .running) (hf : fetchInstr s = .ok i)
    (hc : cycle (viewOf i) s = .error f) : step s = .fault f := by
  rw [step_of_fetch hrun hf, exec_of_cycle_fault hrun (admitted_of_fetchInstr hf) hc]

end

/-- Settles O12: the fetch stage is looked at first, then the stages in the order in which `cycle` evaluates them. -/
theorem firstFaultIsReported : Obligations.FirstFaultIsReported := by
  intro s hrun
  refine ⟨fun f hf => ?fetch, fun i f hf he => ?execute, fun i e f hf he hm => ?memory,
    fun i e m f hf he hm hw => ?writeback, fun i e m r hf he hm hw => ?commit, fun f hm => ?oldMemory⟩
  case fetch => exact step_of_fetch_fault hrun hf
  case execute => exact step_of_cycle_fault hrun hf (cycle_of_execute_fault he)
  case memory => exact step_of_cycle_fault hrun hf (cycle_of_memory_fault he hm)
  case writeback => exact step_of_cycle_fault hrun hf (cycle_of_writeback_fault he hm hw)
  case commit =>
    obtain ⟨x, term⟩ := r
    rw [step_of_fetch hrun hf]
    exact ⟨_, exec_next_iff.2 ⟨hrun, admitted_of_fetchInstr hf, e, m, x, term, he, hm, hw, rfl⟩⟩
  case oldMemory => exact fetchMemory_of_error hm

/-! ## The writeback stage (R230) -/

/-- What the writeback stage writes is what the instruction in MEMWB retires with. -/
theorem writebackRegs_eq_retire (s : State) : writebackRegs s = s.memwb.retire s.x := rfl

/-- A retiring instruction writes its destination when it is marked to and the destination is not x0, and no other
register. -/
theorem MemWbLatch.read_retire (w : MemWbLatch) (x : RegFile) (r : Reg) :
    (w.retire x).read r =
      if w.ctl.writesRf = true ∧ w.ctl.rd ≠ 0#5 ∧ r = w.ctl.rd then writebackValue w else x.read r := by
  unfold retire
  by_cases hw : w.ctl.writesRf = true
  · by_cases hr : r = w.ctl.rd
    · subst hr
      by_cases hzero : w.ctl.rd = 0#5
      · simp [hzero, RegFile.write_zero]
      · simp [hw, hzero, x.read_write_same _ hzero]
    · simp [hw, hr, x.read_write_other _ hr]
  · simp [hw]

/-- A system call with an unsupported code raises with its address and the code (R421, R422). -/
theorem writebackStage_of_unsupported_code {s : State} (hsys : s.memwb.ctl.syscall = true)
    (hcode : (writebackRegs s).read s.cfg.exitArgReg ≠ s.cfg.exitCode) :
    writebackStage s = .error (.syscall s.memwb.pc ((writebackRegs s).read s.cfg.exitArgReg)) := by
  simp [writebackStage, hsys, hcode]

/-- Settles O17: a cycle that commits has the register file and the termination flag of its writeback stage. -/
theorem writebackOfTheCycle : Obligations.WritebackOfTheCycle := by
  refine ⟨fun i s t h => ?commits, fun i s e m hrun hadm he hm hsys hcode => ?raises⟩
  case commits =>
    obtain ⟨-, -, e, m, x, term, -, -, hw, rfl⟩ := exec_next_iff.1 h
    obtain ⟨rfl, rfl, hexit⟩ := writebackStage_ok_iff.1 hw
    have hread := s.memwb.read_retire s.x
    rw [← writebackRegs_eq_retire] at hread
    exact ⟨hread, commit_status .., hexit⟩
  case raises =>
    rw [← writebackRegs_eq_retire] at hcode ⊢
    exact exec_of_cycle_fault hrun hadm
      (cycle_of_writeback_fault he hm (writebackStage_of_unsupported_code hsys hcode))

/-! ## The probe of the memory stage (R222) -/

section
variable {s : State} {a : Word}

theorem probeAccess_of_not_memProbe (h : s.cfg.memProbe = false) : probeAccess s a = .ok (s.cache, none) := by
  simp [probeAccess, h]

/-- With `MEM_PROBE` an access that does not raise made one probe, and hands on its cache and its result. -/
theorem probe_of_probeAccess {k : CacheState} {p : Option ProbeResult} (h : s.cfg.memProbe = true)
    (hp : probeAccess s a = .ok (k, p)) : ∃ r, probe s.cfg s.cache a = .ok (k, r) ∧ p = some r := by
  rw [probeAccess, if_pos h] at hp
  cases hprobe : probe s.cfg s.cache a with
  | error f => simp [hprobe] at hp
  | ok q =>
    obtain ⟨k', r⟩ := q
    obtain ⟨rfl, rfl⟩ : k' = k ∧ some r = p := by simpa [hprobe] using hp
    exact ⟨r, rfl, rfl⟩

theorem cycleProbe_of_ok {m : MemOut} (hm : memoryStage s = .ok m) : cycleProbe s = m.probe := by
  rw [cycleProbe, hm]

/-- The memory stage of a load or a store hands on what its access to the cache gave. -/
theorem probeAccess_of_memoryStage {m : MemOut} (hm : memoryStage s = .ok m)
    (h : s.exmem.ctl.memRead = true ∨ s.exmem.ctl.memWrite = true) :
    probeAccess s s.exmem.alu = .ok (m.cache, m.probe) := by
  rcases memoryStage_ok_cases hm with ⟨-, -, -, hp, -⟩ | ⟨-, -, -, -, hp, -⟩ | ⟨hr, hw, -⟩
  · exact hp
  · exact hp
  · simp [hr, hw] at h

/-- The memory stage of anything else makes no access to the cache. -/
theorem cache_of_memoryStage {m : MemOut} (hm : memoryStage s = .ok m) (hr : s.exmem.ctl.memRead = false)
    (hw : s.exmem.ctl.memWrite = false) : m.cache = s.cache ∧ m.probe = none := by
  rcases memoryStage_ok_cases hm with ⟨hr', -⟩ | ⟨-, hw', -⟩ | ⟨-, -, -, hk, hp, -⟩
  · simp [hr] at hr'
  · simp [hw] at hw'
  · exact ⟨hk, hp⟩

end

/-- Settles O19: the cache and the probe result of a cycle are those of its memory stage. -/
theorem probesOfTheCycle : Obligations.ProbesOfTheCycle := by
  intro i s t h
  obtain ⟨-, -, e, m, x, term, -, hm, -, rfl⟩ := exec_next_iff.1 h
  rw [commit_cache, cycleProbe_of_ok hm]
  refine ⟨fun hprobe haccess => ?probed, fun hnone => ?unprobed⟩
  case probed => exact probe_of_probeAccess hprobe (probeAccess_of_memoryStage hm haccess)
  case unprobed =>
    by_cases haccess : s.exmem.ctl.memRead = true ∨ s.exmem.ctl.memWrite = true
    · have hoff : s.cfg.memProbe = false := hnone.resolve_right fun ⟨hr, hw⟩ => by simp [hr, hw] at haccess
      have hp := probeAccess_of_memoryStage hm haccess
      rw [probeAccess_of_not_memProbe hoff] at hp
      simpa [eq_comm] using hp
    · obtain ⟨hr, hw⟩ := by simpa using haccess
      exact cache_of_memoryStage hm hr hw

/-! ## Control signals (R206) -/

/-- A row reads the register numbers of the operands it has, and no others. -/
theorem CtlRow.complete_congr {r : CtlRow} {v v' : InstructionView} (hrd : r.writesRf = true → v.rd = v'.rd)
    (hrs1 : r.uses1 = true → v.rs1 = v'.rs1) (hrs2 : r.uses2 = true → v.rs2 = v'.rs2) :
    r.complete v = r.complete v' := by
  simp only [CtlRow.complete, ite_congr rfl hrd fun _ => rfl, ite_congr rfl hrs1 fun _ => rfl,
    ite_congr rfl hrs2 fun _ => rfl]

/-- The control signals of an instruction are the row of its mnemonic, completed with the register fields of its word
that the row has. -/
theorem ctlOf_viewOf (row : CtlRow) {i : Instr} {rd rs1 rs2 : Reg} (hrow : ctlRow i.mnemonic = row)
    (hrd : row.writesRf = true → fieldRd (encode i) = rd) (hrs1 : row.uses1 = true → fieldRs1 (encode i) = rs1)
    (hrs2 : row.uses2 = true → fieldRs2 (encode i) = rs2) :
    ctlOf (viewOf i) = row.complete { viewOf i with rd := rd, rs1 := rs1, rs2 := rs2 } := by
  subst hrow
  exact CtlRow.complete_congr hrd hrs1 hrs2

/-- Settles O20: an instruction has the row of its class, and the fields of its word are its operands. An operand that
the class does not have stays the field it is, and the row does not read it. -/
theorem controlSignalsOfEveryInstruction : Obligations.ControlSignalsOfEveryInstruction := by
  intro rd rs1 rs2 imm shamt imm20 off joff
  refine ⟨fun i hi => ?register, fun i hi => ?immediate, fun i hi => ?upper, fun p hp => ?load, fun p hp => ?store,
    fun i hi => ?branch, ?jump, ?indirect, rfl, rfl⟩
  case register =>
    fin_cases hi
    all_goals
      exact ctlOf_viewOf rowRegister rfl (fun _ => encodeR_rd ..) (fun _ => encodeR_rs1 ..) (fun _ => encodeR_rs2 ..)
  case immediate =>
    -- The word of a shift has the shape of format I, `funct7` and the amount making its immediate.
    fin_cases hi
    all_goals
      exact ctlOf_viewOf rowImmediate rfl (fun _ => encodeI_rd ..) (fun _ => encodeI_rs1 ..) (fun _ => rfl)
  case upper =>
    fin_cases hi
    all_goals exact ctlOf_viewOf rowUpper rfl (fun _ => encodeU_rd ..) (fun _ => rfl) (fun _ => rfl)
  case load =>
    fin_cases hp
    all_goals
      exact ctlOf_viewOf (rowLoad _ _) rfl (fun _ => encodeI_rd ..) (fun _ => encodeI_rs1 ..) (fun _ => rfl)
  case store =>
    fin_cases hp
    all_goals
      exact ctlOf_viewOf (rowStore _) rfl (fun _ => rfl) (fun _ => encodeS_rs1 ..) (fun _ => encodeS_rs2 ..)
  case branch =>
    fin_cases hi
    all_goals exact ctlOf_viewOf rowBranch rfl (fun _ => rfl) (fun _ => encodeB_rs1 ..) (fun _ => encodeB_rs2 ..)
  case jump => exact ctlOf_viewOf rowJump rfl (fun _ => encodeJ_rd ..) (fun _ => rfl) (fun _ => rfl)
  case indirect =>
    exact ctlOf_viewOf rowIndirect rfl (fun _ => encodeI_rd ..) (fun _ => encodeI_rs1 ..) (fun _ => rfl)

end Sys2Proof.Machine

/-! PROOFS. The stall of a dependent instruction behind a load, and the forwarding of its operands
(41_hazard_forwarding.md R261 to R275). -/

namespace Sys2Proof.Machine

/-! ## The stall condition (R261) -/

/-- Settles O24: the hazard unit is the conjunction of these tests. -/
theorem stallCondition : Obligations.StallCondition := by
  intro s
  simp only [hazardDetect, Bool.and_eq_true, Bool.or_eq_true, decide_eq_true_eq, and_assoc]

/-- Behind a bubble nothing stalls. -/
theorem hazardDetect_of_bubble {s : State} (h : s.idex = bubbleIdEx) : hazardDetect s = false := by
  rw [hazardDetect, h]
  rfl

/-! ## The forwarding selection (R271) -/

theorem suppliesEx_iff {e : ExMemLatch} {r : Reg} :
    suppliesEx e r = true ↔ e.ctl.writesRf = true ∧ e.ctl.rd ≠ 0#5 ∧ e.ctl.memRead = false ∧ e.ctl.rd = r := by
  simp only [suppliesEx, Bool.and_eq_true, Bool.not_eq_true', decide_eq_true_eq, and_assoc]

theorem suppliesWb_iff {w : MemWbLatch} {r : Reg} :
    suppliesWb w r = true ↔ w.ctl.writesRf = true ∧ w.ctl.rd ≠ 0#5 ∧ w.ctl.rd = r := by
  simp only [suppliesWb, Bool.and_eq_true, decide_eq_true_eq, and_assoc]

section
variable (e : ExMemLatch) (w : MemWbLatch) (r : Reg) (base : Word)

/-- The nearer stage, else the farther one, else the decoded value. -/
theorem forwardFrom_eq :
    forwardFrom e w r base =
      if e.ctl.writesRf = true ∧ e.ctl.rd ≠ 0#5 ∧ e.ctl.memRead = false ∧ e.ctl.rd = r then (e.alu, .ex)
      else if w.ctl.writesRf = true ∧ w.ctl.rd ≠ 0#5 ∧ w.ctl.rd = r then
        (if w.ctl.memRead = true then w.md else w.alu, .wb)
      else (base, .none) := by
  simp only [forwardFrom, suppliesEx_iff, suppliesWb_iff, writebackValue]

/-- A latch that supplies a register names it and is not marked for x0, so none supplies x0. -/
theorem forwardFrom_zero : forwardFrom e w 0#5 base = (base, .none) := by
  have hex : suppliesEx e 0#5 ≠ true := fun h =>
    have ⟨_, hne, _, heq⟩ := suppliesEx_iff.1 h
    hne heq
  have hwb : suppliesWb w 0#5 ≠ true := fun h =>
    have ⟨_, hne, heq⟩ := suppliesWb_iff.1 h
    hne heq
  rw [forwardFrom, if_neg hex, if_neg hwb]

end

/-- A load in MEMWB supplies its destination with the loaded data when the nearer stage writes no register. -/
theorem forwardFrom_load {e : ExMemLatch} {w : MemWbLatch} {r : Reg} (base : Word) (hex : e.ctl.writesRf = false)
    (hload : w.ctl.memRead = true) (hwrites : w.ctl.writesRf = true) (hrd : w.ctl.rd ≠ 0#5) (hr : w.ctl.rd = r) :
    forwardFrom e w r base = (w.md, .wb) := by
  rw [forwardFrom_eq, if_neg (by simp [hex]), if_pos ⟨hwrites, hrd, hr⟩, if_pos hload]

/-- Settles O27: both operands are one selection, on their own register number and decoded value. -/
theorem forwardingSelection : Obligations.ForwardingSelection := by
  refine ⟨fun s => forwardFrom_eq .., fun s => forwardFrom_eq .., fun s h => ?_, fun s h => ?_⟩
  · rw [forward1, h, forwardFrom_zero]
  · rw [forward2, h, forwardFrom_zero]

/-! ## The epilogue of a cycle without a redirect (40_pipeline_engine.md R240) -/

section
variable {s : State} (hno : s.exmem.taken = false)
include hno

theorem nextExMem_of_not_taken (e : ExMemLatch) : nextExMem s e = e := by simp [nextExMem, hno]

theorem nextIdEx_of_no_stall (h : hazardDetect s = false) : nextIdEx s = decodeStage s.ifid (decodeRegs s) := by
  simp [nextIdEx, hno, h]

section
variable (h : hazardDetect s = true)
include h

theorem nextPc_of_stall : nextPc s = s.pc := by simp [nextPc, hno, h]

theorem nextIfId_of_stall (v : InstructionView) : nextIfId s v = s.ifid := by simp [nextIfId, hno, h]

theorem nextIdEx_of_stall : nextIdEx s = bubbleIdEx := by simp [nextIdEx, hno, h]

end

end

/-! ## What a committed cycle leaves in each latch (R245) -/

section
variable {i : Instr} {s t : State} (h : exec i s = .next t)
include h

/-- The program counter, the two front latches and the counters are what the epilogue gives. -/
theorem exec_next_epilogue :
    t.pc = nextPc s ∧ t.ifid = nextIfId s (viewOf i) ∧ t.idex = nextIdEx s ∧ t.ctr = nextCounters s := by
  obtain ⟨-, -, e, m, x, term, -, -, -, rfl⟩ := exec_next_iff.1 h
  exact ⟨rfl, rfl, rfl, rfl⟩

/-- Without a redirect EXMEM takes what the execute stage answers. -/
theorem exec_next_exmem (hno : s.exmem.taken = false) :
    executeStage s.cfg s.idex (forward1 s).1 (forward2 s).1 = .ok t.exmem := by
  obtain ⟨-, -, e, m, x, term, he, -, -, rfl⟩ := exec_next_iff.1 h
  rw [commit_exmem, nextExMem_of_not_taken hno, he]

/-- The instruction of EXMEM goes on to MEMWB with its signals. -/
theorem exec_next_memwb : t.memwb.inst = s.exmem.inst ∧ t.memwb.ctl = s.exmem.ctl := by
  obtain ⟨-, -, e, m, x, term, -, hm, -, rfl⟩ := exec_next_iff.1 h
  obtain ⟨hinst, -, hctl, -⟩ := memoryStage_latch hm
  exact ⟨hinst, hctl⟩

end

/-! ## The execute stage (R219) -/

/-- The rows of R206's table that read memory are the five loads. -/
theorem ctlOf_memRead_iff (v : InstructionView) :
    (ctlOf v).memRead = true ↔ v.op ∈ [Mnemonic.lb, .lh, .lw, .lbu, .lhu] := by
  change (ctlRow v.op).memRead = true ↔ _
  cases v.op <;> decide

/-- Whatever its width, a load computes its effective address (44_load_store.md R360). -/
theorem executeOp_of_load {d : IdExLatch} (c : Config) (a b : Word) (hload : (ctlOf d.inst).memRead = true) :
    executeOp c d a b = .ok (.value (effectiveAddress d a)) := by
  have hop := (ctlOf_memRead_iff d.inst).1 hload
  simp only [List.mem_cons, List.not_mem_nil, or_false] at hop
  rcases hop with hop | hop | hop | hop | hop <;> (rw [executeOp, hop]; rfl)

section
variable {c : Config} {d : IdExLatch} {a b : Word} {e : ExMemLatch} (h : executeStage c d a b = .ok e)
include h

theorem executeStage_latch : e.inst = d.inst ∧ e.ctl = d.ctl := by
  obtain ⟨o, -, rfl⟩ := executeStage_ok_iff.1 h
  exact ⟨rfl, rfl⟩

/-- A load never redirects. -/
theorem executeStage_taken_of_load (hload : (ctlOf d.inst).memRead = true) : e.taken = false := by
  obtain ⟨o, ho, rfl⟩ := executeStage_ok_iff.1 h
  rw [executeOp_of_load c a b hload] at ho
  cases ho
  rfl

end

/-! ## The load-use hazard (R263, R264) -/

theorem nextCounters_stalls (s : State) :
    (nextCounters s).stalls = s.ctr.stalls + if hazardDetect s = true then 1 else 0 := rfl

/-- Settles O25: the stall bubbles IDEX, and behind a bubble nothing stalls. -/
theorem stallHoldsOneCycle : Obligations.StallHoldsOneCycle := by
  intro i s t h hstall hno
  obtain ⟨hpc, hifid, hidex, hctr⟩ := exec_next_epilogue h
  obtain ⟨hinst, hctl⟩ := executeStage_latch (exec_next_exmem h hno)
  have hbubble : t.idex = bubbleIdEx := hidex.trans (nextIdEx_of_stall hno hstall)
  refine ⟨hpc.trans (nextPc_of_stall hno hstall), hifid.trans (nextIfId_of_stall hno hstall _), hbubble, hinst, hctl,
    ?_, hazardDetect_of_bubble hbubble⟩
  rw [hctr, nextCounters_stalls, if_pos hstall]

/-- Settles O26: in the second cycle the load, which cannot redirect, goes on to MEMWB, the dependent instruction is
decoded, and EXMEM takes the bubble of the stall, so that MEMWB is the nearest source. -/
theorem loadUseSeesTheLoadedValue : Obligations.LoadUseSeesTheLoadedValue := by
  intro i j s t u hctlOf hstall hno hst htu
  obtain ⟨hload, hwrites, hrd, -⟩ := (stallCondition s).1 hstall
  obtain ⟨-, hifid, hbubble, hloadInst, hloadCtl, hcount, hgo⟩ := stallHoldsOneCycle i s t hst hstall hno
  have hno' : t.exmem.taken = false := executeStage_taken_of_load (exec_next_exmem hst hno) (hctlOf ▸ hload)
  obtain ⟨-, -, hidex, hctr⟩ := exec_next_epilogue htu
  have hdecoded : u.idex = decodeStage s.ifid (decodeRegs t) := by
    rw [hidex, nextIdEx_of_no_stall hno' hgo, hifid]
  have hexmem : u.exmem.ctl.writesRf = false := by
    rw [(executeStage_latch (exec_next_exmem htu hno')).2, hbubble]
    rfl
  obtain ⟨hinst, hctl⟩ := exec_next_memwb htu
  rw [hloadCtl] at hctl
  rw [← hctl] at hload hwrites hrd ⊢
  refine ⟨by rw [hdecoded]; rfl, hinst.trans hloadInst, rfl, ?_, fun hr => ?_, fun hr => ?_⟩
  · rw [hctr, nextCounters_stalls, hgo, hcount]
    rfl
  · exact forwardFrom_load _ hexmem hload hwrites hrd hr.symm
  · exact forwardFrom_load _ hexmem hload hwrites hrd hr.symm

end Sys2Proof.Machine

/-! PROOFS. One instruction alone in the pipeline up to its memory stage, and the transfers of control that redirect there
(40_pipeline_engine.md R240, R245; 45_control_transfer.md R390 to R405). -/

namespace Sys2Proof.Machine

/-! ## Several cycles -/

theorem stepN_succ_of_next {n : Nat} {s t u : State} (hst : stepN n s = .next t) (htu : step t = .next u) :
    stepN (n + 1) s = .next u := by
  induction n generalizing s with
  | zero =>
    cases hst
    rw [stepN, htu]
    rfl
  | succ n ih =>
    rw [stepN] at hst ⊢
    cases hs : step s with
    | next s' =>
      rw [hs] at hst
      exact ih hst
    | fault f => simp [hs] at hst
    | refused r => simp [hs] at hst

/-! ## What bubbles leave to a stage (R57) -/

section
variable {s : State}

theorem writebackRegs_of_bubble (h : s.memwb.ctl = Ctl.bubble) : writebackRegs s = s.x := by
  rw [writebackRegs, h]
  rfl

theorem writebackStage_of_bubble (h : s.memwb.ctl = Ctl.bubble) : writebackStage s = .ok (s.x, false) := by
  have hsys : s.memwb.ctl.syscall = false := by rw [h]; rfl
  exact writebackStage_ok_iff.2 ⟨(writebackRegs_of_bubble h).symm, hsys.symm, by simp [hsys]⟩

theorem decodeRegs_of_bubble (h : s.memwb.ctl = Ctl.bubble) : decodeRegs s = s.x := by
  rw [decodeRegs, writebackRegs_of_bubble h, ite_self]

theorem memoryStage_of_no_access (hr : s.exmem.ctl.memRead = false) (hw : s.exmem.ctl.memWrite = false) :
    memoryStage s = .ok { mem := s.mem, cache := s.cache, probe := none, latch := memWbOf s.exmem 0#32 } := by
  simp [memoryStage, hr, hw]

theorem hazardDetect_of_idex_bubble (h : s.idex.ctl = Ctl.bubble) : hazardDetect s = false := by
  rw [hazardDetect, h]
  rfl

/-- A bubble reads no register but x0, which no load is ahead of (R261). -/
theorem hazardDetect_of_ifid_bubble (h : s.ifid.inst = bubbleView) : hazardDetect s = false := by
  rw [Bool.eq_false_iff]
  intro hstall
  obtain ⟨-, -, hrd, hreads⟩ := (stallCondition s).1 hstall
  rw [h] at hreads
  exact hreads.elim (fun e => hrd e.symm) (fun e => hrd e.symm)

/-- No operand is forwarded out of bubbles. -/
theorem forwardFrom_of_bubbles {e : ExMemLatch} {w : MemWbLatch} (he : e.ctl = Ctl.bubble) (hw : w.ctl = Ctl.bubble)
    (r : Reg) (base : Word) : forwardFrom e w r base = (base, .none) := by
  rw [forwardFrom, suppliesEx, suppliesWb, he, hw]
  rfl

end

theorem executeStage_of_bubble {c : Config} {d : IdExLatch} {a b : Word} (h : d.inst = bubbleView) :
    ∃ e, executeStage c d a b = .ok e ∧ e.ctl = d.ctl ∧ e.taken = false := by
  have hop : executeOp c d a b = .ok executeBubble := by
    rw [executeOp, h]
    rfl
  exact ⟨_, executeStage_ok_iff.2 ⟨_, hop, rfl⟩, rfl, rfl⟩

/-- Without a stall and a forward a cycle counts itself and its redirect (R245). -/
theorem nextCounters_eq {s : State} (hgo : hazardDetect s = false) (h1 : (forward1 s).2 = .none)
    (h2 : (forward2 s).2 = .none) :
    nextCounters s = { s.ctr with
      cycles := s.ctr.cycles + 1
      branchesTaken := s.ctr.branchesTaken + if s.exmem.taken = true then 1 else 0 } := by
  simp [nextCounters, hgo, h1, h2, countSource]

/-! ## A cycle whose memory and writeback stages have nothing to do -/

/-- `t` is `s` after `n` cycles that have written, probed, stalled, redirected and forwarded nothing, with a bubble in the
writeback stage. -/
structure Advanced (n : Nat) (s t : State) : Prop where
  status : t.status = .running
  cfg : t.cfg = s.cfg
  x : t.x = s.x
  mem : t.mem = s.mem
  cache : t.cache = s.cache
  pc : t.pc = s.pc + BitVec.ofNat 32 (4 * n)
  ctr : t.ctr = { s.ctr with cycles := s.ctr.cycles + n }
  memwb : t.memwb.ctl = Ctl.bubble

theorem advanced_zero {s : State} (h : Drained s) : Advanced 0 s s := by
  obtain ⟨hrun, -, -, -, -, -, hmemwb⟩ := h
  exact ⟨hrun, rfl, rfl, rfl, rfl, (BitVec.add_zero _).symm, rfl, hmemwb⟩

section
variable {n : Nat} {s t : State} {i : Instr} {e : ExMemLatch} (hadv : Advanced n s t)
include hadv

/-- A zero word where the cycle fetches is a bubble, whatever memory the fetch stage reads (R204, R425). -/
theorem fetchInstr_of_zeroWord (hr : t.exmem.ctl.memRead = false) (hw : t.exmem.ctl.memWrite = false)
    (hz : ZeroWordAt s (s.pc + BitVec.ofNat 32 (4 * n))) : fetchInstr t = .ok .bubble := by
  obtain ⟨halign, hbounds, hword⟩ := hz
  rw [fetchInstr_ok_iff, hadv.pc, hadv.cfg, fetchMemory_of_ok (memoryStage_of_no_access hr hw), ite_self, hadv.mem,
    hword]
  exact ⟨halign, hbounds, decode_zero⟩

/-- Without an access in the memory stage the cycle commits, and keeps registers, memory and cache. -/
theorem exec_of_no_access (hadm : i.admitted s.cfg.mExt = true) (hr : t.exmem.ctl.memRead = false)
    (hw : t.exmem.ctl.memWrite = false) (he : executeStage t.cfg t.idex (forward1 t).1 (forward2 t).1 = .ok e) :
    exec i t = .next (commit t (viewOf i) e
      { mem := t.mem, cache := t.cache, probe := none, latch := memWbOf t.exmem 0#32 } t.x false) :=
  exec_next_iff.2 ⟨hadv.status, hadv.cfg ▸ hadm, e, _, _, _, he, memoryStage_of_no_access hr hw,
    writebackStage_of_bubble hadv.memwb, rfl⟩

/-- Behind bubbles and without a stall every instruction moves on by one stage, with the operands of its decoding. -/
theorem exec_moves_on (hadm : i.admitted s.cfg.mExt = true) (hctl : t.exmem.ctl = Ctl.bubble)
    (hno : t.exmem.taken = false) (hgo : hazardDetect t = false)
    (he : executeStage s.cfg t.idex t.idex.v1 t.idex.v2 = .ok e) :
    ∃ u, exec i t = .next u ∧ Advanced (n + 1) s u ∧ u.ifid = fetchLatch t.pc (viewOf i) ∧
      u.idex = decodeStage t.ifid s.x ∧ u.exmem = e := by
  have h1 : forward1 t = (t.idex.v1, .none) := forwardFrom_of_bubbles hctl hadv.memwb _ _
  have h2 : forward2 t = (t.idex.v2, .none) := forwardFrom_of_bubbles hctl hadv.memwb _ _
  have hnext := exec_of_no_access (e := e) hadv hadm (by rw [hctl]; rfl) (by rw [hctl]; rfl)
    (by rw [h1, h2, hadv.cfg]; exact he)
  refine ⟨_, hnext, ⟨rfl, hadv.cfg, hadv.x, hadv.mem, hadv.cache, ?pc, ?ctr, hctl⟩, ?ifid, ?idex,
    nextExMem_of_not_taken hno e⟩
  case pc =>
    rw [commit_pc, nextPc, hno, hgo, hadv.pc, BitVec.add_assoc, Nat.mul_succ, BitVec.ofNat_add]
    rfl
  case ctr =>
    rw [commit_ctr, nextCounters_eq hgo (by rw [h1]) (by rw [h2]), hno, hadv.ctr]
    rfl
  case ifid =>
    rw [commit_ifid, nextIfId, hno, hgo]
    rfl
  case idex =>
    rw [commit_idex, nextIdEx_of_no_stall hno hgo, decodeRegs_of_bubble hadv.memwb, hadv.x]

/-- As `exec_moves_on`, of the cycle that fetches a zero word. -/
theorem step_moves_on (hz : ZeroWordAt s (s.pc + BitVec.ofNat 32 (4 * n))) (hctl : t.exmem.ctl = Ctl.bubble)
    (hno : t.exmem.taken = false) (hgo : hazardDetect t = false)
    (he : executeStage s.cfg t.idex t.idex.v1 t.idex.v2 = .ok e) :
    ∃ u, step t = .next u ∧ Advanced (n + 1) s u ∧ u.ifid.inst = bubbleView ∧
      u.idex = decodeStage t.ifid s.x ∧ u.exmem = e := by
  have hfetch := fetchInstr_of_zeroWord hadv (by rw [hctl]; rfl) (by rw [hctl]; rfl) hz
  obtain ⟨u, hnext, hadv', hifid, hidex, hexmem⟩ :=
    exec_moves_on hadv (i := .bubble) rfl hctl hno hgo he
  exact ⟨u, (step_of_fetch hadv.status hfetch).trans hnext, hadv', by rw [hifid]; rfl, hidex, hexmem⟩

end

/-! ## Alone in the pipeline up to the memory stage -/

/-- The latch IDEX of an instruction that is fetched in the cycle of `s` and decoded with the registers of `s`. -/
def decodedAlone (s : State) (i : Instr) : IdExLatch := decodeStage (fetchLatch s.pc (viewOf i)) s.x

/-- What the execute stage makes of `i`, alone in the pipeline. -/
def executedAlone (s : State) (i : Instr) : Except Fault ExMemLatch :=
  executeStage s.cfg (decodedAlone s i) (decodedAlone s i).v1 (decodedAlone s i).v2

/-- After the cycle that fetches it and two more, an instruction that does not raise is in its memory stage, with bubbles
behind it and ahead of it. -/
theorem exec_reaches_memory {s : State} {i : Instr} {e : ExMemLatch} (h : ReadyForTransfer s)
    (hadm : i.admitted s.cfg.mExt = true) (he : executedAlone s i = .ok e) :
    ∃ t v, exec i s = .next t ∧ stepN 2 t = .next v ∧ Advanced 3 s v ∧ v.exmem = e ∧ v.ifid.inst = bubbleView ∧
      v.idex.inst = bubbleView ∧ v.idex.ctl = Ctl.bubble := by
  obtain ⟨hdrained, hz4, hz8, -⟩ := h
  have ⟨_, hifid, hidexInst, hidexCtl, hexmem, hno, _⟩ := hdrained
  obtain ⟨e₀, he₀, hctl₀, hno₀⟩ :=
    executeStage_of_bubble (c := s.cfg) (a := s.idex.v1) (b := s.idex.v2) hidexInst
  obtain ⟨t, hst, hadv₁, htifid, htidex, htexmem⟩ :=
    exec_moves_on (advanced_zero hdrained) hadm hexmem hno (hazardDetect_of_ifid_bubble hifid) he₀
  have htinst : t.idex.inst = bubbleView := by rw [htidex]; exact hifid
  have htctl : t.idex.ctl = Ctl.bubble := by rw [htidex, decodeStage, hifid]; rfl
  obtain ⟨e₁, he₁, hctl₁, hno₁⟩ :=
    executeStage_of_bubble (c := s.cfg) (a := t.idex.v1) (b := t.idex.v2) htinst
  obtain ⟨u, htu, hadv₂, huifid, huidex, huexmem⟩ :=
    step_moves_on hadv₁ hz4 (by rw [htexmem, hctl₀, hidexCtl]) (by rw [htexmem, hno₀])
      (hazardDetect_of_idex_bubble htctl) he₁
  rw [htifid] at huidex
  obtain ⟨v, huv, hadv₃, hvifid, hvidex, hvexmem⟩ :=
    step_moves_on hadv₂ hz8 (by rw [huexmem, hctl₁, htctl]) (by rw [huexmem, hno₁])
      (hazardDetect_of_ifid_bubble huifid) (by rw [huidex]; exact he)
  refine ⟨t, v, hst, stepN_succ_of_next (stepN_succ_of_next rfl htu) huv, hadv₃, hvexmem, hvifid, ?_, ?_⟩
  · rw [hvidex]; exact huifid
  · rw [hvidex, decodeStage, huifid]; rfl

/-! ## The redirect (R240, R242) -/

/-- `i`, alone in the pipeline, redirects to `target`. -/
structure RedirectsTo (s : State) (i : Instr) (target : Word) : Prop where
  admitted : i.admitted s.cfg.mExt = true
  noRead : (ctlOf (viewOf i)).memRead = false
  noWrite : (ctlOf (viewOf i)).memWrite = false
  executes : ∃ e, executedAlone s i = .ok e ∧ e.taken = true ∧ e.target = target

/-- A transfer that is taken, alone in the pipeline, redirects in its fourth cycle, writes nothing until then, and is in
the writeback-output latch with what the execute stage made of it. -/
theorem exec_redirects {s : State} {i : Instr} {target : Word} (h : ReadyForTransfer s) (hto : RedirectsTo s i target) :
    ∃ t u, exec i s = .next t ∧ stepN 3 t = .next u ∧ Redirected s u i target ∧
      ∃ e, executedAlone s i = .ok e ∧ u.memwb = memWbOf e 0#32 := by
  obtain ⟨e, he, htaken, htarget⟩ := hto.executes
  obtain ⟨hinst, hctl⟩ := executeStage_latch he
  obtain ⟨t, v, hst, htv, hadv, hexmem, -, hidexInst, hidexCtl⟩ := exec_reaches_memory h hto.admitted he
  have hr : v.exmem.ctl.memRead = false := by rw [hexmem, hctl]; exact hto.noRead
  have hw : v.exmem.ctl.memWrite = false := by rw [hexmem, hctl]; exact hto.noWrite
  obtain ⟨-, -, -, hz12⟩ := h
  have hfetch := fetchInstr_of_zeroWord hadv hr hw hz12
  obtain ⟨e', he', -, -⟩ := executeStage_of_bubble (c := v.cfg) (a := (forward1 v).1) (b := (forward2 v).1) hidexInst
  obtain ⟨h1, h2⟩ : forward1 v = (v.idex.v1, .none) ∧ forward2 v = (v.idex.v2, .none) := by
    rw [forward1, forward2, hidexCtl]
    exact ⟨forwardFrom_zero .., forwardFrom_zero ..⟩
  have hvtaken : v.exmem.taken = true := by rw [hexmem, htaken]
  have hvu := exec_of_no_access hadv (i := .bubble) rfl hr hw he'
  refine ⟨t, _, hst, stepN_succ_of_next htv ((step_of_fetch hadv.status hfetch).trans hvu),
    ⟨?pc, hadv.x, hadv.mem, hadv.cache, hadv.cfg, rfl, ?ctr, ?ifid, ?idex, ?exmem, ?inst⟩, e, he, ?memwb⟩
  case pc => rw [commit_pc, nextPc, hvtaken, hexmem]; exact htarget
  case ctr =>
    rw [commit_ctr, nextCounters_eq (hazardDetect_of_idex_bubble hidexCtl) (by rw [h1]) (by rw [h2]), hvtaken, hadv.ctr]
    rfl
  case ifid => rw [commit_ifid, nextIfId, hvtaken]; rfl
  case idex => rw [commit_idex, nextIdEx, hvtaken]; rfl
  case exmem => rw [commit_exmem, nextExMem, hvtaken]; rfl
  case inst => rw [commit_memwb, hexmem]; exact hinst
  case memwb => rw [commit_memwb, hexmem]

/-! ## Which transfers redirect (R390 to R401) -/

theorem condBge_eq (a b : Word) : condBge a b = decide (b.toInt ≤ a.toInt) := by
  rw [condBge, lessSigned, ← decide_not, decide_eq_decide, not_lt]

theorem condBgeu_eq (a b : Word) : condBgeu a b = decide (b.toNat ≤ a.toNat) := by
  rw [condBgeu, lessUnsigned, ← decide_not, decide_eq_decide, not_lt]

section
variable {s : State} {i : Instr} {rd rs1 rs2 : Reg}

/-- A transfer redirects to the target that its execute stage computes. -/
theorem redirectsTo_of_executeOp {row : CtlRow} {o : ExecOut} {target : Word} (hadm : i.admitted s.cfg.mExt = true)
    (hrow : ctlRow i.mnemonic = row) (hr : row.memRead = false) (hw : row.memWrite = false)
    (ho : executeOp s.cfg (decodedAlone s i) (decodedAlone s i).v1 (decodedAlone s i).v2 = .ok o)
    (htaken : o.taken = true) (htarget : o.target = target) : RedirectsTo s i target := by
  subst hrow
  exact ⟨hadm, hr, hw, _, executeStage_ok_iff.2 ⟨o, ho, rfl⟩, htaken, htarget⟩

/-- A branch redirects to its own address plus its offset when its condition holds of its two registers (R390). -/
theorem redirectsTo_of_branch {f3 : BitVec 3} {op : BitVec 7} {off : BitVec 13} {cond : Word → Word → Bool}
    (hadm : i.admitted s.cfg.mExt = true) (hrow : ctlRow i.mnemonic = rowBranch) (hfmt : i.mnemonic.fmt = .B)
    (hword : encode i = encodeB f3 op rs1 rs2 off)
    (hop : ∀ a b, executeOp s.cfg (decodedAlone s i) a b = .ok (.branch (cond a b) (relativeTarget (decodedAlone s i))))
    (heven : off.getLsbD 0 = false) (hcond : cond (s.x.read rs1) (s.x.read rs2) = true) :
    RedirectsTo s i (s.pc + off.signExtend 32) := by
  have hctl := ctlOf_viewOf rowBranch hrow (rd := 0#5) (fun h => by cases h)
    (fun _ => hword ▸ encodeB_rs1 f3 op rs1 rs2 off) (fun _ => hword ▸ encodeB_rs2 f3 op rs1 rs2 off)
  have hv1 : (decodedAlone s i).v1 = s.x.read rs1 := congrArg (fun c : Ctl => s.x.read c.rs1) hctl
  have hv2 : (decodedAlone s i).v2 = s.x.read rs2 := congrArg (fun c : Ctl => s.x.read c.rs2) hctl
  have himm : (decodedAlone s i).imm = off.signExtend 32 := by
    change immOf i.mnemonic.fmt (encode i) = _
    rw [hfmt, hword, immOf, encodeB_imm _ _ _ _ _ heven]
  refine redirectsTo_of_executeOp hadm hrow rfl rfl (hop _ _) ?_ ?_
  · rw [hv1, hv2]
    exact hcond
  · exact congrArg (s.pc + ·) himm

/-- R400: JAL redirects to its own address plus its offset. -/
theorem redirectsTo_of_jal {joff : BitVec 21} (heven : joff.getLsbD 0 = false) :
    RedirectsTo s (.jal rd joff) (s.pc + joff.signExtend 32) := by
  have himm : (decodedAlone s (.jal rd joff)).imm = joff.signExtend 32 :=
    congrArg (BitVec.signExtend 32) (encodeJ_imm _ _ _ heven)
  exact redirectsTo_of_executeOp rfl rfl rfl rfl rfl rfl (congrArg (s.pc + ·) himm)

/-- R401: JALR redirects to base plus offset. -/
theorem redirectsTo_of_jalr {imm : BitVec 12} :
    RedirectsTo s (.jalr rd rs1 imm) (s.x.read rs1 + imm.signExtend 32) := by
  have hbase : (decodedAlone s (.jalr rd rs1 imm)).v1 = s.x.read rs1 :=
    congrArg s.x.read (encodeI_rs1 ..)
  have himm : (decodedAlone s (.jalr rd rs1 imm)).imm = imm.signExtend 32 :=
    congrArg (BitVec.signExtend 32) (encodeI_imm ..)
  exact redirectsTo_of_executeOp rfl rfl rfl rfl rfl rfl (congrArg₂ (· + ·) hbase himm)

end

/-! ## The fetch at the target (R405) -/

/-- No cycle looks at the target before the one that fetches there, and that one commits nothing. -/
theorem faultsAfter_of_redirectsTo {s : State} {i : Instr} {target : Word} {f : Fault} (h : ReadyForTransfer s)
    (hto : RedirectsTo s i target) (hf : checkAccess s.cfg.memSize .fetch target 4 = some f) : FaultsAfter s i 3 f := by
  obtain ⟨t, u, hst, htu, ⟨hpc, hx, hmem, hcache, hcfg, hrun, -⟩, -⟩ := exec_redirects h hto
  have hfetch : fetchInstr u = .error f := by
    rw [fetchInstr, hcfg, hpc, memRead_of_fault (n := .word) _ hf]
  exact ⟨t, u, hst, htu, hx, hmem, hcache, step_of_fetch_fault hrun hfetch⟩

/-- Settles O41: each of the eight transfers redirects to its target, and the fetch there is the first to check it. -/
theorem badTargetsFaultAtTheirFetch : Obligations.BadTargetsFaultAtTheirFetch := by
  intro s rd rs1 rs2 imm off joff hready heven hjeven p hp htaken
  have hto : RedirectsTo s p.1 p.2.1 := by
    fin_cases hp
    · exact redirectsTo_of_jal hjeven
    · exact redirectsTo_of_jalr
    · exact redirectsTo_of_branch rfl rfl rfl rfl (fun _ _ => rfl) heven htaken
    · exact redirectsTo_of_branch rfl rfl rfl rfl (fun _ _ => rfl) heven htaken
    · exact redirectsTo_of_branch rfl rfl rfl rfl (fun _ _ => rfl) heven htaken
    · exact redirectsTo_of_branch rfl rfl rfl rfl (fun _ _ => rfl) heven ((condBge_eq _ _).trans htaken)
    · exact redirectsTo_of_branch rfl rfl rfl rfl (fun _ _ => rfl) heven htaken
    · exact redirectsTo_of_branch rfl rfl rfl rfl (fun _ _ => rfl) heven ((condBgeu_eq _ _).trans htaken)
  exact ⟨fun h => faultsAfter_of_redirectsTo hready hto (checkAccess_of_misaligned h),
    fun ha hb => faultsAfter_of_redirectsTo hready hto (checkAccess_of_out_of_bounds ha hb)⟩

end Sys2Proof.Machine

/-! PROOFS. Multiply and divide in the execute stage (47_muldiv.md R441 to R449). -/

namespace Sys2Proof.Machine

/-! ## What each multiply and divide computes of two register operands -/

section
variable {c : Config} {d : IdExLatch} {a b : Word}

/-- An instruction without an immediate computes on its second register. -/
theorem operandB_of_register (h : d.ctl.immOp2 = false) : operandB d b = b := by simp [operandB, h]

/-- R441, with the product taken over the naturals. -/
theorem executeMul_eq (h : d.ctl.immOp2 = false) :
    executeMul d a b = .value (BitVec.ofNat 32 (a.toNat * b.toNat)) := by
  simp [executeMul, operandB_of_register h, BitVec.ofNat_mul]

/-- R442, with the high half taken by a shift. -/
theorem executeMulh_eq (h : d.ctl.immOp2 = false) :
    executeMulh d a b = .value (BitVec.ofInt 32 ((a.toInt * b.toInt) >>> (32 : Nat))) := by
  rw [executeMulh, operandB_of_register h, Int.shiftRight_eq_div_pow]
  rfl

/-- R443, with the high half taken by a shift. -/
theorem executeMulhsu_eq (h : d.ctl.immOp2 = false) :
    executeMulhsu d a b = .value (BitVec.ofInt 32 ((a.toInt * (b.toNat : Int)) >>> (32 : Nat))) := by
  rw [executeMulhsu, operandB_of_register h, Int.shiftRight_eq_div_pow]
  rfl

/-- R444, with the high half taken by a shift. -/
theorem executeMulhu_eq (h : d.ctl.immOp2 = false) :
    executeMulhu d a b = .value (BitVec.ofNat 32 ((a.toNat * b.toNat) >>> 32)) := by
  rw [executeMulhu, operandB_of_register h, Nat.shiftRight_eq_div_pow]

theorem divOverflow_iff : divOverflow a b = true ↔ a = 0x80000000#32 ∧ b = 0xFFFFFFFF#32 := by simp [divOverflow]

/-- R445 and R449: the three cases of DIV. -/
theorem executeDiv_eq (h : d.ctl.immOp2 = false) :
    executeDiv c d a b =
      if b = 0#32 then divCornerCase c d a b 0xFFFFFFFF#32
      else if a = 0x80000000#32 ∧ b = 0xFFFFFFFF#32 then divCornerCase c d a b 0x80000000#32
      else .ok (.value (BitVec.ofInt 32 (a.toInt.tdiv b.toInt))) := by
  simp only [executeDiv, operandB_of_register h, divOverflow_iff]

/-- R446 and R449: the two cases of DIVU. -/
theorem executeDivu_eq (h : d.ctl.immOp2 = false) :
    executeDivu c d a b =
      if b = 0#32 then divCornerCase c d a b 0xFFFFFFFF#32
      else .ok (.value (BitVec.ofNat 32 (a.toNat / b.toNat))) := by
  simp only [executeDivu, operandB_of_register h]

/-- R447 and R449: the three cases of REM. -/
theorem executeRem_eq (h : d.ctl.immOp2 = false) :
    executeRem c d a b =
      if b = 0#32 then divCornerCase c d a b a
      else if a = 0x80000000#32 ∧ b = 0xFFFFFFFF#32 then divCornerCase c d a b 0#32
      else .ok (.value (BitVec.ofInt 32 (a.toInt - b.toInt * a.toInt.tdiv b.toInt))) := by
  simp only [executeRem, operandB_of_register h, divOverflow_iff]

/-- R448 and R449: the two cases of REMU. -/
theorem executeRemu_eq (h : d.ctl.immOp2 = false) :
    executeRemu c d a b =
      if b = 0#32 then divCornerCase c d a b a
      else .ok (.value (BitVec.ofNat 32 (a.toNat % b.toNat))) := by
  simp only [executeRemu, operandB_of_register h]

/-! ## A corner case (R449) -/

theorem divCornerCase_of_riscv {v : Word} (hc : c.divCorner = .riscv) : divCornerCase c d a b v = .ok (.value v) := by
  simp [divCornerCase, hc]

theorem divCornerCase_of_fault {v : Word} (hm : c.mExt = true) (hc : c.divCorner = .fault) :
    divCornerCase c d a b v = .error (.arith d.pc a b) := by
  simp [divCornerCase, hm, hc]

/-! ## From the operation to the execute stage (R219) -/

/-- The latch behind an operation that computes a value and does not redirect. -/
theorem executeStage_of_value {v : Word} (h : executeOp c d a b = .ok (.value v)) :
    executeStage c d a b =
      .ok { inst := d.inst, pc := d.pc, ctl := d.ctl, alu := v, sv := b, taken := false, target := 0#32 } :=
  executeStage_ok_iff.2 ⟨_, h, rfl⟩

theorem executeStage_of_executeOp_fault {f : Fault} (h : executeOp c d a b = .error f) :
    executeStage c d a b = .error f := by
  rw [executeStage, h]

end

/-! ## The corner cases of the divides, before `DIV_CORNER` decides them (R449) -/

/-- The divides with a zero-divisor corner and the RISC-V value of each. -/
def zeroDivisorValues (a : Word) (rd rs1 rs2 : Reg) : List (Instr × Word) :=
  [(.div rd rs1 rs2, 0xFFFFFFFF#32), (.divu rd rs1 rs2, 0xFFFFFFFF#32), (.rem rd rs1 rs2, a), (.remu rd rs1 rs2, a)]

/-- The divides with an overflow corner and the RISC-V value of each. -/
def signedOverflowValues (rd rs1 rs2 : Reg) : List (Instr × Word) :=
  [(.div rd rs1 rs2, 0x80000000#32), (.rem rd rs1 rs2, 0#32)]

section
variable {c : Config} {pc : Word} {x : RegFile} {a b : Word} {rd rs1 rs2 : Reg}

/-- Every divide by zero is a corner case, with the value that RISC-V gives it. -/
theorem executeOp_of_zero_divisor (hb : b = 0#32) :
    ∀ p ∈ zeroDivisorValues a rd rs1 rs2,
      executeOp c (decodeStage (fetchLatch pc (viewOf p.1)) x) a b =
        divCornerCase c (decodeStage (fetchLatch pc (viewOf p.1)) x) a b p.2 := by
  intro p hp
  fin_cases hp
  · exact (executeDiv_eq rfl).trans (if_pos hb)
  · exact (executeDivu_eq rfl).trans (if_pos hb)
  · exact (executeRem_eq rfl).trans (if_pos hb)
  · exact (executeRemu_eq rfl).trans (if_pos hb)

/-- The signed overflow is a corner case of the two signed divides, with the value that RISC-V gives it. -/
theorem executeOp_of_signed_overflow (ha : a = 0x80000000#32) (hb : b = 0xFFFFFFFF#32) :
    ∀ p ∈ signedOverflowValues rd rs1 rs2,
      executeOp c (decodeStage (fetchLatch pc (viewOf p.1)) x) a b =
        divCornerCase c (decodeStage (fetchLatch pc (viewOf p.1)) x) a b p.2 := by
  have hne : b ≠ 0#32 := by rw [hb]; decide
  intro p hp
  fin_cases hp
  · exact (executeDiv_eq rfl).trans ((if_neg hne).trans (if_pos ⟨ha, hb⟩))
  · exact (executeRem_eq rfl).trans ((if_neg hne).trans (if_pos ⟨ha, hb⟩))

end

/-- Settles O23: each operation's equation gives its value outside the corners; in them `DIV_CORNER` chooses between the
value and the fault. -/
theorem executeStageOfMultiplyAndDivide : Obligations.ExecuteStageOfMultiplyAndDivide := by
  intro c pc x a b rd rs1 rs2 hm
  refine ⟨?products, ?unsigned, ?signed, fun hc => ⟨?riscvZero, ?riscvOverflow⟩, fun hc => ⟨?faultZero, ?faultOverflow⟩⟩
  case products =>
    intro p hp
    refine executeStage_of_value ?_
    fin_cases hp
    · exact congrArg Except.ok (executeMul_eq rfl)
    · exact congrArg Except.ok (executeMulh_eq rfl)
    · exact congrArg Except.ok (executeMulhsu_eq rfl)
    · exact congrArg Except.ok (executeMulhu_eq rfl)
  case unsigned =>
    intro hb p hp
    refine executeStage_of_value ?_
    fin_cases hp
    · exact (executeDivu_eq rfl).trans (if_neg hb)
    · exact (executeRemu_eq rfl).trans (if_neg hb)
  case signed =>
    intro hb hov p hp
    refine executeStage_of_value ?_
    fin_cases hp
    · exact (executeDiv_eq rfl).trans ((if_neg hb).trans (if_neg hov))
    · exact (executeRem_eq rfl).trans ((if_neg hb).trans (if_neg hov))
  case riscvZero =>
    intro hb p hp
    exact executeStage_of_value
      ((executeOp_of_zero_divisor hb p hp).trans (divCornerCase_of_riscv hc))
  case riscvOverflow =>
    intro ha hb p hp
    exact executeStage_of_value
      ((executeOp_of_signed_overflow ha hb p hp).trans (divCornerCase_of_riscv hc))
  case faultZero =>
    intro hb i hi
    obtain ⟨p, hp, rfl⟩ := List.mem_map (f := Prod.fst) (l := zeroDivisorValues a rd rs1 rs2) |>.1 hi
    exact executeStage_of_executeOp_fault
      ((executeOp_of_zero_divisor hb p hp).trans (divCornerCase_of_fault hm hc))
  case faultOverflow =>
    intro ha hb i hi
    obtain ⟨p, hp, rfl⟩ := List.mem_map (f := Prod.fst) (l := signedOverflowValues rd rs1 rs2) |>.1 hi
    exact executeStage_of_executeOp_fault
      ((executeOp_of_signed_overflow ha hb p hp).trans (divCornerCase_of_fault hm hc))

end Sys2Proof.Machine

/-! PROOFS. The parts of an address, the victim of a full set, and the three outcomes of a probe
(48_cache_engine.md R472 to R485). -/

namespace Sys2Proof.Machine

/-! ## Address decomposition (R472, R473) -/

section
variable (c : Config) (a b : Word)

/-- Tag, set index and offset are the digits of the address. -/
theorem tagOf_setOf_offsetOf_sum :
    a.toNat = tagOf c a * 2 ^ (c.bBits + c.sBits) + setOf c a * 2 ^ c.bBits + offsetOf c a := by
  have hblock := Nat.div_add_mod' a.toNat (2 ^ c.bBits)
  have hset := Nat.div_add_mod' (a.toNat / 2 ^ c.bBits) (2 ^ c.sBits)
  calc a.toNat
      = a.toNat / 2 ^ c.bBits * 2 ^ c.bBits + offsetOf c a := hblock.symm
    _ = (a.toNat / 2 ^ c.bBits / 2 ^ c.sBits * 2 ^ c.sBits + setOf c a) * 2 ^ c.bBits + offsetOf c a := by
        rw [setOf, hset]
    _ = tagOf c a * 2 ^ (c.bBits + c.sBits) + setOf c a * 2 ^ c.bBits + offsetOf c a := by
        rw [tagOf, pow_add, ← Nat.div_div_eq_div_mul]
        ring

theorem blockOf_toNat_eq_sub_offsetOf : (blockOf c a).toNat = a.toNat - offsetOf c a := by
  have hsplit : a.toNat / 2 ^ c.bBits * 2 ^ c.bBits + offsetOf c a = a.toNat := Nat.div_add_mod' a.toNat (2 ^ c.bBits)
  rw [blockOf_toNat]
  omega

/-- A block is its tag and its set index put together. -/
theorem blockOf_toNat_eq_tagOf_add_setOf :
    (blockOf c a).toNat = tagOf c a * 2 ^ (c.bBits + c.sBits) + setOf c a * 2 ^ c.bBits := by
  have hsum := tagOf_setOf_offsetOf_sum c a
  have hsub := blockOf_toNat_eq_sub_offsetOf c a
  omega

/-- R473: the block of an address and its tag and set index determine each other. -/
theorem blockOf_eq_iff : blockOf c a = blockOf c b ↔ tagOf c a = tagOf c b ∧ setOf c a = setOf c b := by
  constructor
  · intro h
    rw [← tagOf_blockOf c a, ← setOf_blockOf c a, h, tagOf_blockOf, setOf_blockOf]
    exact ⟨rfl, rfl⟩
  · rintro ⟨htag, hset⟩
    apply BitVec.eq_of_toNat_eq
    rw [blockOf_toNat_eq_tagOf_add_setOf, blockOf_toNat_eq_tagOf_add_setOf, htag, hset]

end

/-- Settles O51: the parts are the digits of the address, and a block is its tag and set put together. -/
theorem addressDecomposition : Obligations.AddressDecomposition := by
  refine fun c _ => ⟨fun a => ⟨tagOf_setOf_offsetOf_sum c a, Nat.mod_lt _ (by positivity), ?setBits, ?tagBits,
    blockOf_toNat_eq_sub_offsetOf c a, tagOf_blockOf c a, setOf_blockOf c a⟩, blockOf_eq_iff c⟩
  case setBits => rw [setOf, Nat.shiftRight_eq_div_pow]
  case tagBits => rw [tagOf, Nat.shiftRight_eq_div_pow]

/-! ## The order of the lines of a set (R480) -/

section
variable {p : Policy} {l m v : Line}

theorem beats_lru_iff : beats .lru l m = true ↔ l.ts < m.ts := decide_eq_true_iff

theorem beats_lfu_iff : beats .lfu l m = true ↔ l.count < m.count ∨ (l.count = m.count ∧ l.ts < m.ts) := by
  simp [beats]

/-- A line that beats the running choice beats each line that does not: both policies rank the lines linearly. -/
theorem beats_of_beats_of_not_beats (hl : beats p l v = true) (hm : ¬beats p m v = true) : beats p l m = true := by
  cases p with
  | lru =>
    rw [beats_lru_iff] at *
    omega
  | lfu =>
    rw [beats_lfu_iff] at *
    omega

theorem not_beats_of_beats (h : beats p l m = true) : ¬beats p m l = true := by
  cases p with
  | lru =>
    rw [beats_lru_iff] at *
    omega
  | lfu =>
    rw [beats_lfu_iff] at *
    omega

theorem not_beats_self : ¬beats p l l = true := fun h => not_beats_of_beats h h

end

/-! ## The victim scan (R481) -/

/-- Line `v` of `ls` is `l`; the policy ranks no line before `l`, and `l` before every line of a lower index. -/
structure FirstRanked (p : Policy) (ls : List Line) (v : Nat) (l : Line) : Prop where
  line : ls[v]? = some l
  unbeaten : ∀ m ∈ ls, ¬beats p m l = true
  lowest : ∀ j < v, ∀ m, ls[j]? = some m → beats p l m = true

section
variable {p : Policy} {ls : List Line} {v : Nat} {l m : Line}

theorem firstRanked_singleton : FirstRanked p [l] 0 l where
  line := rfl
  unbeaten := by simpa using not_beats_self
  lowest := fun _ hj => absurd hj (Nat.not_lt_zero _)

/-- The running choice stays when the next line does not beat it. -/
theorem FirstRanked.append_of_not_beats (h : FirstRanked p ls v l) (hm : ¬beats p m l = true) :
    FirstRanked p (ls ++ [m]) v l := by
  obtain ⟨hv, -⟩ := List.getElem?_eq_some_iff.1 h.line
  refine ⟨by rw [List.getElem?_append_left hv, h.line], ?_, fun j hj n hn => ?_⟩
  · intro n hn
    rcases List.mem_append.1 hn with hmem | hlast
    · exact h.unbeaten n hmem
    · rwa [List.mem_singleton.1 hlast]
  · rw [List.getElem?_append_left (hj.trans hv)] at hn
    exact h.lowest j hj n hn

/-- The next line is the choice from there on when it beats the running choice. -/
theorem FirstRanked.append_of_beats (h : FirstRanked p ls v l) (hm : beats p m l = true) :
    FirstRanked p (ls ++ [m]) ls.length m := by
  have hbeats : ∀ n ∈ ls, beats p m n = true := fun n hn => beats_of_beats_of_not_beats hm (h.unbeaten n hn)
  refine ⟨by simp, ?_, fun j hj n hn => ?_⟩
  · intro n hn
    rcases List.mem_append.1 hn with hmem | hlast
    · exact not_beats_of_beats (hbeats n hmem)
    · rw [List.mem_singleton.1 hlast]
      exact not_beats_self
  · rw [List.getElem?_append_left hj] at hn
    exact hbeats n (List.mem_of_getElem? hn)

/-- The scan over `rest`, begun with the choice among the lines `ls` before it, ends with the choice among them all. -/
theorem victimScan_firstRanked {rest : List Line} (h : FirstRanked p ls v l) :
    ∃ n, FirstRanked p (ls ++ rest) (victimScan p rest ls.length v l) n := by
  induction rest generalizing ls v l with
  | nil => exact ⟨l, by simpa [victimScan] using h⟩
  | cons m rest ih =>
    rw [victimScan, List.append_cons]
    by_cases hm : beats p m l = true
    · rw [if_pos hm]
      simpa using ih (h.append_of_beats hm)
    · rw [if_neg hm]
      simpa using ih (h.append_of_not_beats hm)

/-- The victim is the lowest-indexed of the lines that the policy ranks first. -/
theorem victimIndex_firstRanked (hv : victimIndex p ls = some v) (hl : ls[v]? = some l) : FirstRanked p ls v l := by
  cases ls with
  | nil => simp at hl
  | cons head rest =>
    obtain rfl : victimScan p rest 1 0 head = v := Option.some.inj hv
    obtain ⟨n, hn⟩ := victimScan_firstRanked (p := p) (rest := rest) (firstRanked_singleton (l := head))
    obtain rfl : n = l := Option.some.inj (hn.line.symm.trans hl)
    exact hn

/-- R480 for LRU: the oldest timestamp. -/
theorem FirstRanked.lru (h : FirstRanked .lru ls v l) :
    (∀ m ∈ ls, l.ts ≤ m.ts) ∧ ∀ j < v, ∀ m, ls[j]? = some m → l.ts < m.ts := by
  refine ⟨fun m hm => ?_, fun j hj m hm => beats_lru_iff.1 (h.lowest j hj m hm)⟩
  have hnot := h.unbeaten m hm
  rw [beats_lru_iff] at hnot
  omega

/-- R480 for LFU: the smallest count, and among those the oldest timestamp. -/
theorem FirstRanked.lfu (h : FirstRanked .lfu ls v l) :
    (∀ m ∈ ls, l.count < m.count ∨ (l.count = m.count ∧ l.ts ≤ m.ts)) ∧
    ∀ j < v, ∀ m, ls[j]? = some m → l.count < m.count ∨ (l.count = m.count ∧ l.ts < m.ts) := by
  refine ⟨fun m hm => ?_, fun j hj m hm => beats_lfu_iff.1 (h.lowest j hj m hm)⟩
  have hnot := h.unbeaten m hm
  rw [beats_lfu_iff] at hnot
  omega

end

/-! ## The searches of a probe (R475) -/

/-- A search that succeeds gives the first line with the property. -/
theorem getElem?_of_findIdx?_eq_some {f : Line → Bool} {ls : List Line} {i : Nat} (h : ls.findIdx? f = some i) :
    ∃ l, ls[i]? = some l ∧ f l = true ∧ ∀ j < i, ∀ m, ls[j]? = some m → f m = false := by
  obtain ⟨hi, hmatch, hfirst⟩ := List.findIdx?_eq_some_iff_getElem.1 h
  refine ⟨ls[i], List.getElem?_eq_getElem hi, hmatch, fun j hj m hm => ?_⟩
  obtain ⟨_, rfl⟩ := List.getElem?_eq_some_iff.1 hm
  simpa using hfirst j hj

section
variable {l : Line} {t : Nat}

theorem validWithTag_eq_true_iff : (l.valid && l.tag == t) = true ↔ l.valid = true ∧ l.tag = t := by simp

theorem validWithTag_eq_false_iff : (l.valid && l.tag == t) = false ↔ ¬(l.valid = true ∧ l.tag = t) := by simp

end

/-- A search for a valid line with tag `t` that fails leaves no such line. -/
theorem no_line_of_search_eq_none {ls : List Line} {t : Nat}
    (h : ls.findIdx? (fun l => l.valid && l.tag == t) = none) : ∀ m ∈ ls, ¬(m.valid = true ∧ m.tag = t) :=
  fun m hm => validWithTag_eq_false_iff.1 (List.findIdx?_eq_none_iff.1 h m hm)

/-- Settles O49: the first search finds the lowest match, the second the lowest invalid line, and the victim scan the
lowest-indexed of the lines ranked first. -/
theorem probeOutcomes : Obligations.ProbeOutcomes := by
  intro c k k' a r h
  obtain ⟨S, S', hS, hp, rfl⟩ := probe_ok_iff.1 h
  rcases probeSet_ok_cases hp with ⟨i, l, hfind, hl, rfl, rfl⟩ | ⟨hnone, i, hfind, rfl, rfl⟩ |
    ⟨hnone, hfull, v, l, hvictim, hl, rfl, rfl⟩
  all_goals refine ⟨S, _, hS, rfl, countProbe_sets _ _, ?_⟩
  case inl =>
    obtain ⟨l', hl', hmatch, hfirst⟩ := getElem?_of_findIdx?_eq_some hfind
    obtain rfl : l' = l := Option.some.inj (hl'.symm.trans hl)
    obtain ⟨hvalid, htag⟩ := validWithTag_eq_true_iff.1 hmatch
    exact .inl ⟨i, l', hl, hvalid, htag, fun j hj m hm => validWithTag_eq_false_iff.1 (hfirst j hj m hm),
      rfl, rfl, rfl, rfl, rfl⟩
  case inr.inl =>
    obtain ⟨l, hl, hinvalid, hfirst⟩ := getElem?_of_findIdx?_eq_some hfind
    exact .inr (.inl ⟨no_line_of_search_eq_none hnone, i, l, hl, by simpa using hinvalid,
      fun j hj m hm => by simpa using hfirst j hj m hm, rfl, rfl, rfl, rfl, rfl⟩)
  case inr.inr =>
    have hranked := victimIndex_firstRanked hvictim hl
    have hallValid : ∀ m ∈ S.lines, m.valid = true := fun m hm => by
      simpa using List.findIdx?_eq_none_iff.1 hfull m hm
    refine .inr (.inr ⟨fun m hm => ⟨hallValid m hm, fun ht => ?noMatch⟩, v, l, hl, fun hpol => ?lru, fun hpol => ?lfu,
      rfl, rfl, rfl, rfl, rfl⟩)
    case noMatch => exact no_line_of_search_eq_none hnone m hm ⟨hallValid m hm, ht⟩
    case lru => exact (hpol ▸ hranked).lru
    case lfu => exact (hpol ▸ hranked).lfu

end Sys2Proof.Machine

/-! PROOFS. A fetched word of no admitted row (30_encoding.md R161, 60_exceptions.md R602). -/

namespace Sys2Proof

/-- A word that no admitted row matches is refused: a word that decodes is of an admitted row. -/
theorem decode_error_of_no_row {mExt : Bool} {w : Word} (h : ∀ k, ¬RowAdmits mExt w k) :
    ∃ err, decode mExt w = .error err := by
  cases hdecode : decode mExt w with
  | ok i => exact absurd (rowAdmits_of_decode hdecode) (h i.mnemonic)
  | error err => exact ⟨err, rfl⟩

namespace Machine

/-- After an access that passes its checks, a decode error is the `DECODE` fault of the fetch stage, with the word that
was read. -/
theorem fetchInstr_of_decode_error {s : State} {err : DecodeError} (halign : s.pc.toNat % 4 = 0)
    (hbounds : s.pc.toNat + 4 ≤ s.cfg.memSize)
    (hdecode : decode s.cfg.mExt ((fetchMemory s).readWidth s.pc.toNat .word) = .error err) :
    fetchInstr s = .error (.decode s.pc ((fetchMemory s).readWidth s.pc.toNat .word)) := by
  have hread := memRead_of_pass (k := .fetch) (n := .word) (fetchMemory s) (checkAccess_none_iff.2 ⟨halign, hbounds⟩)
  simp only [fetchInstr, hread, hdecode]

/-- Settles O7: the word is of no row that the machine has, so the fetch stage raises, and a fetch fault is the fault of
the step whatever the later stages do. -/
theorem wordOfNoRowFaults : Obligations.WordOfNoRowFaults := by
  rintro s w hrun halign hbounds rfl hrows
  have hnone : ∀ k, ¬RowAdmits s.cfg.mExt ((fetchMemory s).readWidth s.pc.toNat .word) k := by
    rintro k ⟨hrow, hM⟩
    obtain ⟨hisM, hext⟩ := hrows k hrow
    exact absurd (hM hisM) (by simp [hext])
  obtain ⟨err, hdecode⟩ := decode_error_of_no_row hnone
  exact step_of_fetch_fault hrun (fetchInstr_of_decode_error halign hbounds hdecode)

end Machine

end Sys2Proof

/-! PROOFS. The decoder and the encoder are inverse to each other, and the words of the pseudo-instructions
(30_encoding.md R142 to R151, R181). -/

namespace Sys2Proof

/-! ## Decoding the word of each format (R142) -/

section
variable (mExt : Bool) (f7 : BitVec 7) (f3 : BitVec 3) (rd rs1 rs2 : Reg) (imm : BitVec 12)

theorem decode_encodeR_op : decode mExt (encodeR f7 f3 0x33#7 rd rs1 rs2) = decodeOp mExt f7 f3 rd rs1 rs2 := by
  rw [decode_op (encodeR_opcode ..), encodeR_funct7, encodeR_funct3, encodeR_rd, encodeR_rs1, encodeR_rs2]

/-- The word of a shift has the shape of format R, the amount in the place of `rs2`. -/
theorem decode_encodeR_opImm (shamt : BitVec 5) :
    decode mExt (encodeR f7 f3 0x13#7 rd rs1 shamt) =
      decodeOpImm f7 f3 rd rs1 shamt (fieldImmI (encodeR f7 f3 0x13#7 rd rs1 shamt)) := by
  rw [decode_opImm (encodeR_opcode ..), encodeR_funct7, encodeR_funct3, encodeR_rd, encodeR_rs1, encodeR_rs2]

theorem decode_encodeI_opImm :
    decode mExt (encodeI f3 0x13#7 rd rs1 imm) =
      decodeOpImm (fieldFunct7 (encodeI f3 0x13#7 rd rs1 imm)) f3 rd rs1
        (fieldRs2 (encodeI f3 0x13#7 rd rs1 imm)) imm := by
  rw [decode_opImm (encodeI_opcode ..), encodeI_funct3, encodeI_rd, encodeI_rs1, encodeI_imm]

theorem decode_encodeI_load : decode mExt (encodeI f3 0x03#7 rd rs1 imm) = decodeLoad f3 rd rs1 imm := by
  rw [decode_load (encodeI_opcode ..), encodeI_funct3, encodeI_rd, encodeI_rs1, encodeI_imm]

theorem decode_encodeI_jalr : decode mExt (encodeI 0#3 0x67#7 rd rs1 imm) = .ok (.jalr rd rs1 imm) := by
  rw [decode_jalr (encodeI_opcode ..) (encodeI_funct3 ..), encodeI_rd, encodeI_rs1, encodeI_imm]

theorem decode_encodeS : decode mExt (encodeS f3 0x23#7 rs1 rs2 imm) = decodeStore f3 rs1 rs2 imm := by
  rw [decode_store (encodeS_opcode ..), encodeS_funct3, encodeS_rs1, encodeS_rs2, encodeS_imm]

theorem decode_encodeB {off : BitVec 13} (heven : off.getLsbD 0 = false) :
    decode mExt (encodeB f3 0x63#7 rs1 rs2 off) = decodeBranch f3 rs1 rs2 off := by
  rw [decode_branch (encodeB_opcode ..), encodeB_funct3, encodeB_rs1, encodeB_rs2, encodeB_imm _ _ _ _ _ heven]

theorem decode_encodeU_lui (imm20 : BitVec 20) : decode mExt (encodeU 0x37#7 rd imm20) = .ok (.lui rd imm20) := by
  rw [decode_lui (encodeU_opcode ..), encodeU_rd, encodeU_imm]

theorem decode_encodeU_auipc (imm20 : BitVec 20) : decode mExt (encodeU 0x17#7 rd imm20) = .ok (.auipc rd imm20) := by
  rw [decode_auipc (encodeU_opcode ..), encodeU_rd, encodeU_imm]

theorem decode_encodeJ {off : BitVec 21} (heven : off.getLsbD 0 = false) :
    decode mExt (encodeJ 0x6F#7 rd off) = .ok (.jal rd off) := by
  rw [decode_jal (encodeJ_opcode ..), encodeJ_rd, encodeJ_imm _ _ _ heven]

end

/-- What well-formedness asks of an instruction with an offset, and of the multiply and divide rows. -/
theorem wellFormed_iff {mExt : Bool} {i : Instr} :
    i.wellFormed mExt = true ↔ i.offsetEven = true ∧ (i.mnemonic.isM = true → mExt = true) := by
  rw [Instr.wellFormed, Instr.admitted, Bool.and_eq_true]
  cases i.mnemonic.isM <;> simp

/-- Settles O1: each format gives back its fields, and the codes of a row select the row's arm of the decoder. -/
theorem decodeOfEncode : Obligations.DecodeOfEncode := by
  intro mExt i hwf
  obtain ⟨heven, hM⟩ := wellFormed_iff.1 hwf
  cases i with
  | add | sub | sll | slt | sltu | xor | srl | sra | or | and => exact decode_encodeR_op ..
  | mul | mulh | mulhsu | mulhu | div | divu | rem | remu =>
    obtain rfl := hM rfl
    exact decode_encodeR_op ..
  | slli | srli | srai => exact decode_encodeR_opImm ..
  | addi | slti | sltiu | xori | ori | andi => exact decode_encodeI_opImm ..
  | lb | lh | lw | lbu | lhu => exact decode_encodeI_load ..
  | sb | sh | sw => exact decode_encodeS ..
  | beq | bne | blt | bge | bltu | bgeu => exact decode_encodeB _ _ _ _ (by simpa [Instr.offsetEven] using heven)
  | jal => exact decode_encodeJ _ _ (by simpa [Instr.offsetEven] using heven)
  | jalr => exact decode_encodeI_jalr ..
  | lui => exact decode_encodeU_lui ..
  | auipc => exact decode_encodeU_auipc ..
  | ecall => exact decode_ecall
  | bubble => exact decode_zero

/-! ## A word is its fields put together -/

section
variable {w : Word} {f7 : BitVec 7} {f3 : BitVec 3} {op : BitVec 7}

theorem encodeR_of_fields (h7 : fieldFunct7 w = f7) (h3 : fieldFunct3 w = f3) (hop : fieldOpcode w = op) :
    encodeR f7 f3 op (fieldRd w) (fieldRs1 w) (fieldRs2 w) = w := by
  subst h7 h3 hop
  rw [encodeR, fieldFunct7, fieldRs2, fieldRs1, fieldFunct3, fieldRd, fieldOpcode, extract_join w 20 5 7,
    extract_join w 15 5 12, extract_join w 12 3 17, extract_join w 7 5 20, extract_join w 0 7 25, extract_whole]

theorem encodeI_of_fields (h3 : fieldFunct3 w = f3) (hop : fieldOpcode w = op) :
    encodeI f3 op (fieldRd w) (fieldRs1 w) (fieldImmI w) = w := by
  subst h3 hop
  rw [encodeI, fieldImmI, fieldRs1, fieldFunct3, fieldRd, fieldOpcode, extract_join w 15 5 12, extract_join w 12 3 17,
    extract_join w 7 5 20, extract_join w 0 7 25, extract_whole]

theorem encodeS_of_fields (h3 : fieldFunct3 w = f3) (hop : fieldOpcode w = op) :
    encodeS f3 op (fieldRs1 w) (fieldRs2 w) (fieldImmS w) = w := by
  subst h3 hop
  have hhigh : (fieldImmS w).extractLsb' 5 7 = w.extractLsb' 25 7 := BitVec.extractLsb'_append_eq_left
  have hlow : (fieldImmS w).extractLsb' 0 5 = w.extractLsb' 7 5 := BitVec.extractLsb'_append_eq_right
  rw [encodeS, hhigh, hlow, fieldRs2, fieldRs1, fieldFunct3, fieldOpcode, extract_join w 20 5 7,
    extract_join w 15 5 12, extract_join w 12 3 17, extract_join w 7 5 20, extract_join w 0 7 25, extract_whole]

theorem encodeU_of_fields (hop : fieldOpcode w = op) : encodeU op (fieldRd w) (fieldImmU w) = w := by
  subst hop
  rw [encodeU, fieldImmU, fieldRd, fieldOpcode, extract_join w 7 5 20, extract_join w 0 7 25, extract_whole]

/-- The slices of a branch offset are those that its word scatters (R170). -/
theorem fieldImmB_slices (w : Word) :
    (fieldImmB w).extractLsb' 12 1 = w.extractLsb' 31 1 ∧ (fieldImmB w).extractLsb' 11 1 = w.extractLsb' 7 1 ∧
    (fieldImmB w).extractLsb' 5 6 = w.extractLsb' 25 6 ∧ (fieldImmB w).extractLsb' 1 4 = w.extractLsb' 8 4 := by
  have hshift (s l : Nat) : (fieldImmB w).extractLsb' (s + 1) l =
      (w.extractLsb' 31 1 ++ w.extractLsb' 7 1 ++ w.extractLsb' 25 6 ++ w.extractLsb' 8 4).extractLsb' s l :=
    extract_append_high _ 0#1 (s + 1) l (by omega)
  refine ⟨(hshift 11 1).trans ?_, (hshift 10 1).trans ?_, (hshift 4 6).trans ?_, (hshift 0 4).trans ?_⟩
  · refine (extract_append_high _ _ 11 1 (by decide)).trans ((extract_append_high _ _ 7 1 (by decide)).trans ?_)
    exact (extract_append_high _ _ 1 1 (by decide)).trans (extract_whole _)
  · refine (extract_append_high _ _ 10 1 (by decide)).trans ((extract_append_high _ _ 6 1 (by decide)).trans ?_)
    exact (extract_append_low _ _ 0 1 (by decide)).trans (extract_whole _)
  · exact (extract_append_high _ _ 4 6 (by decide)).trans
      ((extract_append_low _ _ 0 6 (by decide)).trans (extract_whole _))
  · exact (extract_append_low _ _ 0 4 (by decide)).trans (extract_whole _)

/-- The slices of a jump offset are those that its word scatters (R170). -/
theorem fieldImmJ_slices (w : Word) :
    (fieldImmJ w).extractLsb' 20 1 = w.extractLsb' 31 1 ∧ (fieldImmJ w).extractLsb' 12 8 = w.extractLsb' 12 8 ∧
    (fieldImmJ w).extractLsb' 11 1 = w.extractLsb' 20 1 ∧ (fieldImmJ w).extractLsb' 1 10 = w.extractLsb' 21 10 := by
  have hshift (s l : Nat) : (fieldImmJ w).extractLsb' (s + 1) l =
      (w.extractLsb' 31 1 ++ w.extractLsb' 12 8 ++ w.extractLsb' 20 1 ++ w.extractLsb' 21 10).extractLsb' s l :=
    extract_append_high _ 0#1 (s + 1) l (by omega)
  refine ⟨(hshift 19 1).trans ?_, (hshift 11 8).trans ?_, (hshift 10 1).trans ?_, (hshift 0 10).trans ?_⟩
  · refine (extract_append_high _ _ 19 1 (by decide)).trans ((extract_append_high _ _ 9 1 (by decide)).trans ?_)
    exact (extract_append_high _ _ 8 1 (by decide)).trans (extract_whole _)
  · refine (extract_append_high _ _ 11 8 (by decide)).trans ((extract_append_high _ _ 1 8 (by decide)).trans ?_)
    exact (extract_append_low _ _ 0 8 (by decide)).trans (extract_whole _)
  · exact (extract_append_high _ _ 10 1 (by decide)).trans
      ((extract_append_low _ _ 0 1 (by decide)).trans (extract_whole _))
  · exact (extract_append_low _ _ 0 10 (by decide)).trans (extract_whole _)

/-- Bit 0 appended as 0 makes an offset even. -/
theorem getLsbD_append_zero {n : Nat} (x : BitVec n) : (x ++ 0#1).getLsbD 0 = false :=
  (BitVec.getLsbD_append ..).trans rfl

theorem encodeB_of_fields (h3 : fieldFunct3 w = f3) (hop : fieldOpcode w = op) :
    encodeB f3 op (fieldRs1 w) (fieldRs2 w) (fieldImmB w) = w := by
  subst h3 hop
  obtain ⟨hsign, hbit7, hhigh, hlow⟩ := fieldImmB_slices w
  rw [encodeB, hsign, hbit7, hhigh, hlow, fieldRs2, fieldRs1, fieldFunct3, fieldOpcode, extract_join w 25 6 1,
    extract_join w 20 5 7, extract_join w 15 5 12, extract_join w 12 3 17, extract_join w 8 4 20,
    extract_join w 7 1 24, extract_join w 0 7 25, extract_whole]

theorem encodeJ_of_fields (hop : fieldOpcode w = op) : encodeJ op (fieldRd w) (fieldImmJ w) = w := by
  subst hop
  obtain ⟨hsign, hmid, hbit20, hlow⟩ := fieldImmJ_slices w
  rw [encodeJ, hsign, hmid, hbit20, hlow, fieldRd, fieldOpcode, extract_join w 21 10 1, extract_join w 20 1 11,
    extract_join w 12 8 12, extract_join w 7 5 20, extract_join w 0 7 25, extract_whole]

end

/-! ## Every word of an admitted row is the word of its instruction -/

/-- The decoder reads every bit of the word that the codes of its row leave free. -/
theorem decode_eq_and_encode_eq_of_matchesRow {mExt : Bool} {w : Word} {k : Mnemonic} (h : matchesRow k w = true)
    (hM : k.isM = true → mExt = true) : ∃ i, decode mExt w = .ok i ∧ encode i = w ∧ i.offsetEven = true := by
  have hcodes := (matchesRow_iff k w).1 h
  cases k with
  | add | sub | sll | slt | sltu | xor | srl | sra | or | and =>
    obtain ⟨h7, h3, hop⟩ := hcodes
    exact ⟨_, by rw [decode_op hop, h7, h3]; rfl, by exact encodeR_of_fields h7 h3 hop, rfl⟩
  | mul | mulh | mulhsu | mulhu | div | divu | rem | remu =>
    obtain ⟨h7, h3, hop⟩ := hcodes
    obtain rfl := hM rfl
    exact ⟨_, by rw [decode_op hop, h7, h3]; rfl, by exact encodeR_of_fields h7 h3 hop, rfl⟩
  | slli | srli | srai =>
    obtain ⟨h7, h3, hop⟩ := hcodes
    exact ⟨_, by rw [decode_opImm hop, h7, h3]; rfl, by exact encodeR_of_fields h7 h3 hop, rfl⟩
  | addi | slti | sltiu | xori | ori | andi =>
    obtain ⟨h3, hop⟩ := hcodes
    exact ⟨_, by rw [decode_opImm hop, h3]; rfl, by exact encodeI_of_fields h3 hop, rfl⟩
  | lb | lh | lw | lbu | lhu =>
    obtain ⟨h3, hop⟩ := hcodes
    exact ⟨_, by rw [decode_load hop, h3]; rfl, by exact encodeI_of_fields h3 hop, rfl⟩
  | sb | sh | sw =>
    obtain ⟨h3, hop⟩ := hcodes
    exact ⟨_, by rw [decode_store hop, h3]; rfl, by exact encodeS_of_fields h3 hop, rfl⟩
  | beq | bne | blt | bge | bltu | bgeu =>
    obtain ⟨h3, hop⟩ := hcodes
    exact ⟨_, by rw [decode_branch hop, h3]; rfl, by exact encodeB_of_fields h3 hop,
      by exact congrArg not (getLsbD_append_zero _)⟩
  | jalr =>
    obtain ⟨h3, hop⟩ := hcodes
    exact ⟨_, decode_jalr hop h3, encodeI_of_fields h3 hop, rfl⟩
  | lui => exact ⟨_, decode_lui hcodes, encodeU_of_fields hcodes, rfl⟩
  | auipc => exact ⟨_, decode_auipc hcodes, encodeU_of_fields hcodes, rfl⟩
  | jal =>
    exact ⟨_, decode_jal hcodes, encodeJ_of_fields hcodes, congrArg not (getLsbD_append_zero _)⟩
  | ecall =>
    obtain rfl : w = 0x00000073#32 := hcodes
    exact ⟨_, decode_ecall, rfl, rfl⟩
  | bubble =>
    obtain rfl : w = 0x00000000#32 := hcodes
    exact ⟨_, decode_zero, rfl, rfl⟩

/-- Settles O2: the word is of a row that the machine has, and the word of such a row is that of its instruction. -/
theorem encodeOfDecode : Obligations.EncodeOfDecode := by
  intro mExt w i h
  obtain ⟨hrow, hM⟩ := rowAdmits_of_decode h
  obtain ⟨i', hi', hword, heven⟩ := decode_eq_and_encode_eq_of_matchesRow hrow hM
  obtain rfl : i' = i := Except.ok.inj (hi'.symm.trans h)
  exact ⟨hword, wellFormed_iff.2 ⟨heven, hM⟩⟩

/-- Settles O4: the view is read from the word of the instruction, which is the word that was decoded. -/
theorem viewOfDecoded : Obligations.ViewOfDecoded := by
  intro mExt w i h
  obtain ⟨hword, -⟩ := encodeOfDecode mExt w i h
  rw [viewOf, hword]
  rfl

/-- Settles O6: the decoder evaluates on each of the thirteen words. -/
theorem exampleWordsDecode : Obligations.ExampleWordsDecode := by
  exact ⟨rfl, rfl, rfl, rfl, rfl, rfl, rfl, rfl, rfl, rfl, rfl, rfl, rfl⟩

/-! ## Pseudo-instructions (R181) -/

/-- No pseudo-instruction expands to a multiply or divide. -/
theorem isM_of_mem_expand {p : Pseudo} {i : Instr} (h : i ∈ p.expand) : i.mnemonic.isM = false := by
  cases p with
  | li rd imm =>
    rw [Pseudo.expand] at h
    split at h <;> fin_cases h <;> rfl
  | _ => fin_cases h <;> rfl

/-- A slice of the low bits of a sign-extension is a slice of what was extended. -/
theorem extract_signExtend {n : Nat} (x : BitVec n) (hn : n ≤ 32) : (x.signExtend 32).extractLsb' 0 n = x := by
  refine BitVec.eq_of_getLsbD_eq fun i hi => ?_
  have hi32 : i < 32 := by omega
  simp [BitVec.getElem_signExtend, hi, hi32]

/-- The low bits of a sum depend on the low bits of the summands alone. -/
theorem extract_add (a b : Word) (n : Nat) (hn : n ≤ 32) :
    (a + b).extractLsb' 0 n = a.extractLsb' 0 n + b.extractLsb' 0 n := by
  simp only [← BitVec.setWidth_eq_extractLsb' hn, BitVec.setWidth_add _ _ hn]

/-- The low part taken away leaves a multiple of 2^12, which its upper 20 bits hold. -/
theorem splitHigh_append_zero (imm : Word) : splitHigh imm ++ 0#12 = imm - (splitLow imm).signExtend 32 := by
  have hsum := extract_add (imm - (splitLow imm).signExtend 32) ((splitLow imm).signExtend 32) 12 (by decide)
  rw [BitVec.sub_add_cancel, extract_signExtend _ (by decide)] at hsum
  have hlow : (imm - (splitLow imm).signExtend 32).extractLsb' 0 12 = 0#12 := by
    exact add_eq_right.1 hsum.symm
  rw [splitHigh, ← hlow]
  exact (extract_join _ 0 12 20).trans (extract_whole _)

/-- An immediate in the range of ADDI is the sign-extension of its low 12 bits. -/
theorem signExtend_splitLow {imm : Word} (hlow : -2048 ≤ imm.toInt) (hhigh : imm.toInt ≤ 2047) :
    (splitLow imm).signExtend 32 = imm := by
  apply BitVec.eq_of_toInt_eq
  rw [BitVec.toInt_signExtend_of_le (by decide), splitLow, BitVec.toInt_extractLsb']
  rw [BitVec.toInt_eq_toNat_cond] at *
  simp only [Nat.shiftRight_zero, Int.bmod]
  split_ifs at * <;> omega

/-- R160: the words of these opcodes are of no row. -/
theorem decode_error_of_absent_opcode {mExt : Bool} {w : Word}
    (h : fieldOpcode w ∈ [0x0F#7, 0x07#7, 0x27#7, 0x43#7, 0x47#7, 0x4B#7, 0x4F#7, 0x53#7]) :
    decode mExt w = .error .unrecognizedOpcode := by
  have hzero : w ≠ 0x00000000#32 := by
    rintro rfl
    revert h
    decide
  rw [decode, if_neg hzero]
  generalize fieldOpcode w = op at h
  fin_cases h <;> rfl

/-- R420: of the SYSTEM words ECALL's alone is of a row. -/
theorem decode_error_of_system {mExt : Bool} {w : Word} (hop : fieldOpcode w = 0x73#7) (hw : w ≠ 0x00000073#32) :
    decode mExt w = .error .malformedFunct := by
  rw [decode, if_neg (ne_zero_of_fieldOpcode hop (by decide)), hop]
  exact if_neg hw

/-- Settles O60: the expansions are of rows without the extension, and what is left of a split immediate is a multiple
of 2^12. -/
theorem pseudoInstructionsExpandIntoTheCore : Obligations.PseudoInstructionsExpandIntoTheCore := by
  refine ⟨fun mExt p i hi heven => ?core, fun imm => ?split, fun imm => signExtend_splitLow, fun rd imm => ?li,
    fun mExt w h => ?refused⟩
  case core =>
    have hwf : i.wellFormed mExt = true := wellFormed_iff.2 ⟨heven, fun hM => by simp [isM_of_mem_expand hi] at hM⟩
    exact ⟨hwf, decodeOfEncode mExt i hwf⟩
  case split => rw [splitHigh_append_zero, BitVec.sub_add_cancel]
  case li => simp only [Pseudo.expand, fitsAddi, Bool.and_eq_true, decide_eq_true_eq]
  case refused =>
    rcases h with hop | ⟨hop, hw⟩
    · exact ⟨_, decode_error_of_absent_opcode hop⟩
    · exact ⟨_, decode_error_of_system hop hw⟩

end Sys2Proof

/-! PROOFS. The invariant of the machine: every step keeps it, and it holds of every state as created (10_state.md R41, R60,
R62, R70; 40_pipeline_engine.md R206, R245; 70_reset_and_hazards.md R700). -/

namespace Sys2Proof.Machine

/-! ## What the epilogue leaves in the three younger latches (R240) -/

section
variable (s : State)

theorem nextIfId_cases (v : InstructionView) :
    nextIfId s v = bubbleIfId ∨ nextIfId s v = s.ifid ∨ nextIfId s v = fetchLatch s.pc v := by
  unfold nextIfId
  split_ifs
  · exact .inl rfl
  · exact .inr (.inl rfl)
  · exact .inr (.inr rfl)

theorem nextIdEx_cases :
    nextIdEx s = bubbleIdEx ∨
    (s.exmem.taken = false ∧ hazardDetect s = false ∧ nextIdEx s = decodeStage s.ifid (decodeRegs s)) := by
  cases hno : s.exmem.taken with
  | true => exact .inl (by rw [nextIdEx, hno]; rfl)
  | false =>
    cases hgo : hazardDetect s with
    | true => exact .inl (nextIdEx_of_stall hno hgo)
    | false => exact .inr ⟨rfl, rfl, nextIdEx_of_no_stall hno hgo⟩

theorem nextExMem_cases (e : ExMemLatch) :
    nextExMem s e = bubbleExMem ∨ (s.exmem.taken = false ∧ nextExMem s e = e) := by
  cases hno : s.exmem.taken with
  | true => exact .inl (by rw [nextExMem, hno]; rfl)
  | false => exact .inr ⟨rfl, nextExMem_of_not_taken hno e⟩

end

/-! ## Views (R56, R60) -/

theorem genuine_bubbleView (mExt : Bool) : Genuine mExt bubbleView := ⟨.bubble, rfl, rfl⟩

/-- The fetch stage delivers the view of an instruction that the machine has. -/
theorem genuine_of_fetchInstr {s : State} {i : Instr} (h : fetchInstr s = .ok i) : Genuine s.cfg.mExt (viewOf i) := by
  obtain ⟨-, -, hdecode⟩ := fetchInstr_ok_iff.1 h
  obtain ⟨-, hwf⟩ := encodeOfDecode _ _ _ hdecode
  exact ⟨i, hwf, rfl⟩

section
variable {mExt : Bool} {s : State}

theorem genuine_nextIfId {v : InstructionView} (hs : Genuine mExt s.ifid.inst) (hv : Genuine mExt v) :
    Genuine mExt (nextIfId s v).inst := by
  rcases nextIfId_cases s v with h | h | h <;> rw [h]
  · exact genuine_bubbleView mExt
  · exact hs
  · exact hv

theorem genuine_nextIdEx (hs : Genuine mExt s.ifid.inst) : Genuine mExt (nextIdEx s).inst := by
  rcases nextIdEx_cases s with h | ⟨-, -, h⟩ <;> rw [h]
  · exact genuine_bubbleView mExt
  · exact hs

theorem genuine_nextExMem {e : ExMemLatch} (he : Genuine mExt e.inst) : Genuine mExt (nextExMem s e).inst := by
  rcases nextExMem_cases s e with h | ⟨-, h⟩ <;> rw [h]
  · exact genuine_bubbleView mExt
  · exact he

end

/-! ## Control signals of the latches (R206, R215) -/

theorem nextIdEx_control (s : State) :
    (nextIdEx s).ctl = ctlOf (nextIdEx s).inst ∧ (nextIdEx s).imm = (nextIdEx s).inst.imm := by
  rcases nextIdEx_cases s with h | ⟨-, -, h⟩ <;> rw [h] <;> exact ⟨rfl, rfl⟩

theorem nextExMem_control {s : State} {e : ExMemLatch} (he : e.ctl = ctlOf e.inst) :
    (nextExMem s e).ctl = ctlOf (nextExMem s e).inst := by
  rcases nextExMem_cases s e with h | ⟨-, h⟩ <;> rw [h]
  · rfl
  · exact he

/-! ## Only branches and jumps redirect (R219, R221) -/

/-- An operation that, unless it raises, computes no redirect. -/
def NeverTaken (r : Except Fault ExecOut) : Prop := ∀ o, r = .ok o → o.taken = false

theorem neverTaken_value (v : Word) : NeverTaken (.ok (.value v)) := by
  rintro o h
  cases h
  rfl

theorem neverTaken_ite {p : Prop} [Decidable p] {r q : Except Fault ExecOut} (hr : NeverTaken r) (hq : NeverTaken q) :
    NeverTaken (if p then r else q) := by
  split_ifs
  · exact hr
  · exact hq

section
variable {c : Config} {d : IdExLatch} {a b : Word}

theorem neverTaken_divCornerCase {v : Word} : NeverTaken (divCornerCase c d a b v) :=
  neverTaken_ite (fun _ h => by cases h) (neverTaken_value v)

/-- Each divide answers a corner case or a value (R449). -/
theorem neverTaken_divides :
    NeverTaken (executeDiv c d a b) ∧ NeverTaken (executeDivu c d a b) ∧ NeverTaken (executeRem c d a b) ∧
    NeverTaken (executeRemu c d a b) :=
  ⟨neverTaken_ite neverTaken_divCornerCase (neverTaken_ite neverTaken_divCornerCase (neverTaken_value _)),
    neverTaken_ite neverTaken_divCornerCase (neverTaken_value _),
    neverTaken_ite neverTaken_divCornerCase (neverTaken_ite neverTaken_divCornerCase (neverTaken_value _)),
    neverTaken_ite neverTaken_divCornerCase (neverTaken_value _)⟩

/-- An instruction whose row is not of the branch class computes no redirect. -/
theorem neverTaken_executeOp (hb : (ctlOf d.inst).branch = false) : NeverTaken (executeOp c d a b) := by
  obtain ⟨hdiv, hdivu, hrem, hremu⟩ := neverTaken_divides (c := c) (d := d) (a := a) (b := b)
  change (ctlRow d.inst.op).branch = false at hb
  rw [executeOp]
  cases hop : d.inst.op with
  | beq | bne | blt | bge | bltu | bgeu | jal | jalr =>
    rw [hop] at hb
    cases hb
  | div => exact hdiv
  | divu => exact hdivu
  | rem => exact hrem
  | remu => exact hremu
  | _ => exact neverTaken_value _

end

theorem nextExMem_redirect {s : State} {e : ExMemLatch} (hctl : s.idex.ctl = ctlOf s.idex.inst) {a b : Word}
    (he : executeStage s.cfg s.idex a b = .ok e) (htaken : (nextExMem s e).taken = true) :
    (nextExMem s e).ctl.branch = true := by
  rcases nextExMem_cases s e with h | ⟨-, h⟩ <;> rw [h] at htaken ⊢
  · cases htaken
  · obtain ⟨o, ho, rfl⟩ := executeStage_ok_iff.1 he
    by_contra hb
    rw [Bool.not_eq_true, hctl] at hb
    exact Bool.false_ne_true ((neverTaken_executeOp hb o ho).symm.trans htaken)

/-! ## Decoded values, and loads ahead of their consumers (R216, R273) -/

theorem nextIdEx_operands {s : State} (hwb : s.cfg.rfWbBeforeDecode = true) :
    (nextIdEx s).v1 = (writebackRegs s).read (nextIdEx s).ctl.rs1 ∧
    (nextIdEx s).v2 = (writebackRegs s).read (nextIdEx s).ctl.rs2 := by
  rcases nextIdEx_cases s with h | ⟨-, -, h⟩ <;> rw [h]
  · exact ⟨rfl, rfl⟩
  · rw [decodeRegs, if_pos hwb]
    exact ⟨rfl, rfl⟩

/-- Every row that reads memory writes a register (R206). -/
theorem ctlOf_writesRf_of_memRead {v : InstructionView} (h : (ctlOf v).memRead = true) : (ctlOf v).writesRf = true := by
  change (ctlRow v.op).memRead = true at h
  change (ctlRow v.op).writesRf = true
  revert h
  cases v.op <;> decide

/-- A load that moves on to EXMEM leaves behind it a bubble, or an instruction that the hazard unit let through. -/
theorem nextIdEx_loadUse {s : State} {e : ExMemLatch} (hctl : s.idex.ctl = ctlOf s.idex.inst) (he : e.ctl = s.idex.ctl)
    (hload : (nextExMem s e).ctl.memRead = true) (hrd : (nextExMem s e).ctl.rd ≠ 0#5) :
    (nextIdEx s).ctl.rs1 ≠ (nextExMem s e).ctl.rd ∧ (nextIdEx s).ctl.rs2 ≠ (nextExMem s e).ctl.rd := by
  rcases nextExMem_cases s e with h | ⟨-, h⟩ <;> rw [h] at hload hrd ⊢
  · cases hload
  rw [he] at hload hrd ⊢
  rcases nextIdEx_cases s with h | ⟨-, hgo, h⟩ <;> rw [h]
  · exact ⟨hrd.symm, hrd.symm⟩
  · have hwrites : s.idex.ctl.writesRf = true := by
      rw [hctl] at hload ⊢
      exact ctlOf_writesRf_of_memRead hload
    have hpass : ∀ r, r = s.idex.ctl.rd → ¬((ctlOf s.ifid.inst).rs1 = r ∨ (ctlOf s.ifid.inst).rs2 = r) := by
      rintro r rfl hreads
      have hstall := (stallCondition s).2 ⟨hload, hwrites, hrd, hreads⟩
      rw [hgo] at hstall
      cases hstall
    exact not_or.1 (hpass _ rfl)

/-! ## Counters (R245) -/

/-- Each of the two operands has one source. -/
theorem countSource_le_two (a b : FwdSource) : countSource .ex a b + countSource .wb a b ≤ 2 := by
  cases a <;> cases b <;> decide

theorem nextCounters_bounds {s : State}
    (h : s.ctr.stalls ≤ s.ctr.cycles ∧ s.ctr.branchesTaken ≤ s.ctr.cycles ∧
      s.ctr.fwdEx + s.ctr.fwdWb ≤ 2 * s.ctr.cycles) :
    (nextCounters s).stalls ≤ (nextCounters s).cycles ∧ (nextCounters s).branchesTaken ≤ (nextCounters s).cycles ∧
    (nextCounters s).fwdEx + (nextCounters s).fwdWb ≤ 2 * (nextCounters s).cycles := by
  obtain ⟨hstalls, htaken, hfwd⟩ := h
  have htwo := countSource_le_two (forward1 s).2 (forward2 s).2
  simp only [nextCounters]
  refine ⟨?_, ?_, by omega⟩ <;> split_ifs <;> omega

/-! ## Memory and cache (R62, R100) -/

section
variable {s : State} {m : MemOut} (hm : memoryStage s = .ok m)
include hm

/-- The memory stage keeps memory canonical and in bounds: a store passed its checks. -/
theorem memoryStage_keeps_memory (h : s.mem.wf = true ∧ s.mem.within s.cfg.memSize = true) :
    m.mem.wf = true ∧ m.mem.within s.cfg.memSize = true := by
  obtain ⟨hwf, hin⟩ := h
  rcases memoryStage_ok_cases hm with ⟨-, -, hmem, -⟩ | ⟨-, -, hcheck, hmem, -⟩ | ⟨-, -, hmem, -⟩ <;> rw [hmem]
  · exact ⟨hwf, hin⟩
  · obtain ⟨-, hbounds⟩ := checkAccess_none_iff.1 hcheck
    exact ⟨Memory.wf_writeWidth hwf _ _ _, Memory.within_writeWidth hin _ _ _ hbounds⟩
  · exact ⟨hwf, hin⟩

theorem memoryStage_keeps_cacheWf (h : CacheWf s.cfg s.cache) : CacheWf s.cfg m.cache := by
  by_cases haccess : s.exmem.ctl.memRead = true ∨ s.exmem.ctl.memWrite = true
  · have hp := probeAccess_of_memoryStage hm haccess
    cases hprobe : s.cfg.memProbe with
    | true =>
      obtain ⟨r, hr, -⟩ := probe_of_probeAccess hprobe hp
      exact probe_keeps_cacheWf h hr
    | false =>
      rw [probeAccess_of_not_memProbe hprobe] at hp
      obtain ⟨hcache, -⟩ := Prod.mk.inj (Except.ok.inj hp)
      exact hcache ▸ h
  · obtain ⟨hr, hw⟩ := by simpa using haccess
    obtain ⟨hcache, -⟩ := cache_of_memoryStage hm hr hw
    rw [hcache]
    exact h

end

theorem writebackRegs_entry_zero (s : State) : (writebackRegs s)[0] = s.x[0] := by
  unfold writebackRegs
  split_ifs
  · exact RegFile.write_entry_zero ..
  · rfl

/-- Settles O58: each clause is kept by the stage that writes its part of the state; a stall keeps a consumer off the load
ahead of it. -/
theorem stepKeepsTheInvariant : Obligations.StepKeepsTheInvariant := by
  intro s t hinv hstep
  obtain ⟨-, i, hfetch, hexec⟩ := step_next_iff.1 hstep
  obtain ⟨-, -, e, m, x, term, he, hm, hw, rfl⟩ := exec_next_iff.1 hexec
  obtain ⟨rfl, -, -⟩ := writebackStage_ok_iff.1 hw
  obtain ⟨hifid, hidex, hexmem, -⟩ := hinv.views
  obtain ⟨hidexCtl, hexmemCtl, -, -⟩ := hinv.control
  obtain ⟨heInst, heCtl⟩ := executeStage_latch he
  obtain ⟨hmInst, -, hmCtl, -⟩ := memoryStage_latch hm
  obtain ⟨hctl, himm⟩ := nextIdEx_control s
  exact {
    config := hinv.config
    zeroRegister := (writebackRegs_entry_zero s).trans hinv.zeroRegister
    memory := memoryStage_keeps_memory (s := s) hm hinv.memory
    views := ⟨genuine_nextIfId (s := s) hifid (genuine_of_fetchInstr (s := s) hfetch), genuine_nextIdEx (s := s) hifid,
      genuine_nextExMem (s := s) (heInst ▸ hidex), hmInst ▸ hexmem⟩
    control := ⟨hctl, nextExMem_control (by rw [heCtl, heInst, hidexCtl]), by
      rw [commit_memwb, hmCtl, hmInst, hexmemCtl], himm⟩
    redirect := nextExMem_redirect hidexCtl he
    operands := nextIdEx_operands (s := s)
    loadUse := nextIdEx_loadUse hidexCtl heCtl
    counters := nextCounters_bounds hinv.counters
    cache := memoryStage_keeps_cacheWf (s := s) hm hinv.cache }

end Sys2Proof.Machine

/-! PROOFS. The launch and the state after reset (70_reset_and_hazards.md R700; 10_state.md R70). -/

namespace Sys2Proof.Machine

/-! ## The ranges of a configuration (R11, R471) -/

theorem config_valid_iff (c : Config) :
    c.valid = true ↔
      1 ≤ c.ways ∧ c.sBits + c.bBits ≤ 32 ∧ 4 ≤ c.memSize ∧ c.memSize ≤ 2 ^ 32 ∧ c.exitArgReg ≠ 0#5 := by
  simp only [Config.valid, Bool.and_eq_true, decide_eq_true_eq, and_assoc]

/-! ## The image -/

/-- Memory after the bytes of a list of cells were written in order. -/
def Memory.load (m : Memory) (cells : List Host.Cell) : Memory := cells.foldl (fun m c => m.put c.1 c.2) m

theorem imageOf_eq_load (cells : List Host.Cell) : imageOf cells = Memory.load [] cells := rfl

namespace Memory

variable {m : Memory} {cells : List Host.Cell}

theorem load_cons (m : Memory) (c : Host.Cell) (cells : List Host.Cell) :
    m.load (c :: cells) = (m.put c.1 c.2).load cells := rfl

theorem load_append (m : Memory) (cells later : List Host.Cell) : m.load (cells ++ later) = (m.load cells).load later :=
  List.foldl_append

theorem wf_load (h : m.wf = true) : (m.load cells).wf = true := by
  induction cells generalizing m with
  | nil => exact h
  | cons c cells ih => exact ih (wf_put h c.1 c.2)

theorem within_load {size : Nat} (h : m.within size = true) (hcells : ∀ c ∈ cells, c.1 < size) :
    (m.load cells).within size = true := by
  induction cells generalizing m with
  | nil => exact h
  | cons c cells ih =>
    obtain ⟨hc, hcells⟩ := List.forall_mem_cons.1 hcells
    exact ih (within_put h c.1 c.2 hc) hcells

/-- Cells leave alone the bytes that they do not name. -/
theorem byte_load_of_not_named (h : m.wf = true) {a : Nat} (ha : ∀ c ∈ cells, c.1 ≠ a) :
    (m.load cells).byte a = m.byte a := by
  induction cells generalizing m with
  | nil => rfl
  | cons c cells ih =>
    obtain ⟨hc, hcells⟩ := List.forall_mem_cons.1 ha
    rw [load_cons, ih (wf_put h c.1 c.2) hcells, byte_put h, if_neg hc.symm]

/-- A byte has the value of the last cell that names it (log 11). -/
theorem byte_load_of_last (h : m.wf = true) {earlier later : List Host.Cell} {a : Nat} {b : Byte}
    (hlast : ∀ c ∈ later, c.1 ≠ a) : (m.load (earlier ++ (a, b) :: later)).byte a = b := by
  have hearlier : (m.load earlier).wf = true := wf_load h
  rw [load_append, load_cons, byte_load_of_not_named (wf_put hearlier a b) hlast, byte_put hearlier, if_pos rfl]

end Memory

/-! ## The state as created -/

/-- Registers as created: x0 zero, the others as given. -/
theorem created_read (regs : RegFile) (r : Reg) :
    RegFile.read (regs.set 0 0#32) r = if r = 0#5 then 0#32 else regs[r.toNat] := by
  unfold RegFile.read
  by_cases hr : r = 0#5
  · rw [if_pos hr, if_pos hr]
  · have hne : 0 ≠ r.toNat := fun e => hr (BitVec.eq_of_toNat_eq e.symm)
    rw [if_neg hr, if_neg hr, Vector.getElem_set_ne _ _ hne]

/-- A set as created has no valid line, and its clock is 0. -/
theorem setWf_created (c : Config) (i : Nat) :
    SetWf c i { clock := 0, lines := List.replicate c.ways Line.created } := by
  refine ⟨List.length_replicate, fun l hl hv => ?_, ?_, ?_⟩
  · rw [List.eq_of_mem_replicate hl] at hv
    cases hv
  · exact List.pairwise_replicate.2 (.inr fun hv => by cases hv)
  · exact List.pairwise_replicate.2 (.inr fun hv => hv)

theorem cacheWf_created (c : Config) : CacheWf c (CacheState.created c) := by
  refine ⟨List.length_replicate, fun i S hS => ?_, ?_, le_rfl⟩
  · rw [List.eq_of_mem_replicate (List.mem_of_getElem? hS)]
    exact setWf_created c i
  · simp [CacheState.created]

/-- A state as created meets the invariant, whatever its registers and start address. -/
theorem created_inv {c : Config} {image : Memory} {regs : RegFile} {startPc : Word} (hc : c.valid = true)
    (hwf : image.wf = true) (hin : image.within c.memSize = true) : (State.created c image regs startPc).Inv where
  config := hc
  zeroRegister := by simp
  memory := ⟨hwf, hin⟩
  views := ⟨genuine_bubbleView _, genuine_bubbleView _, genuine_bubbleView _, genuine_bubbleView _⟩
  control := ⟨rfl, rfl, rfl, rfl⟩
  redirect := fun h => by cases h
  operands := fun _ => ⟨rfl, rfl⟩
  loadUse := fun h => by cases h
  counters := ⟨le_rfl, le_rfl, le_rfl⟩
  cache := cacheWf_created c

/-- Settles O57: the configuration is in range, and no byte is listed. -/
theorem resetMeetsTheInvariant : Obligations.ResetMeetsTheInvariant := created_inv (by decide) rfl rfl

/-! ## The launch (R700) -/

section
variable {c : Config} {image : List Host.Cell} (regs : RegFile) (startPc : Word)

theorem launch_of_valid (hc : c.valid = true) (himage : ∀ cell ∈ image, cell.1 < c.memSize) :
    launch c image regs startPc = .next (State.created c (imageOf image) regs startPc) := by
  rw [launch, if_pos hc, if_pos (List.all_eq_true.2 fun cell hcell => decide_eq_true (himage cell hcell))]

theorem launch_of_invalid (hc : ¬c.valid = true) : launch c image regs startPc = .refused .badConfiguration := by
  rw [launch, if_neg hc]

theorem launch_of_bad_image (hc : c.valid = true) (himage : ∃ cell ∈ image, c.memSize ≤ cell.1) :
    launch c image regs startPc = .refused .badImage := by
  obtain ⟨cell, hcell, hout⟩ := himage
  rw [launch, if_pos hc, if_neg]
  intro hall
  exact hout.not_gt (of_decide_eq_true (List.all_eq_true.1 hall cell hcell))

/-- A launch that answers a state has taken its arguments. -/
theorem launch_next {u : State} (h : launch c image regs startPc = .next u) :
    c.valid = true ∧ (∀ cell ∈ image, cell.1 < c.memSize) ∧ u = State.created c (imageOf image) regs startPc := by
  unfold launch at h
  split_ifs at h with hc himage
  cases h
  exact ⟨hc, fun cell hcell => of_decide_eq_true (List.all_eq_true.1 himage cell hcell), rfl⟩

end

/-- Settles O59: what a launch takes gives a configuration in range and an image in bounds. -/
theorem launchMeetsTheInvariant : Obligations.LaunchMeetsTheInvariant := by
  intro c image regs startPc u h
  obtain ⟨hc, himage, rfl⟩ := launch_next regs startPc h
  exact created_inv hc (Memory.wf_load rfl) (Memory.within_load rfl himage)

/-- Settles O56: a launch in range answers the state as created, whose fields are the reset values; the image is written
cell by cell into the empty memory. -/
theorem launchGivesTheResetValues : Obligations.LaunchGivesTheResetValues := by
  refine ⟨fun c image regs startPc hways hbits hlow hhigh hexit himage => ?values,
    fun c image regs startPc hout => ?badConfiguration,
    fun c image regs startPc hways hbits hlow hhigh hexit himage => ?badImage, rfl⟩
  case values =>
    have hc := (config_valid_iff c).2 ⟨hways, hbits, hlow, hhigh, hexit⟩
    refine ⟨_, launch_of_valid regs startPc hc himage, rfl, rfl, rfl, created_read regs,
      fun earlier later a b hsplit hlast => ?named, fun a ha => Memory.byte_load_of_not_named rfl ha,
      Memory.wf_load rfl, rfl, rfl, rfl, rfl, rfl, rfl, rfl, rfl,
      List.length_replicate, fun S hS => ?sets⟩
    case named =>
      rw [State.created_mem, imageOf_eq_load, hsplit]
      exact Memory.byte_load_of_last rfl hlast
    case sets =>
      rw [List.eq_of_mem_replicate hS]
      exact ⟨rfl, List.length_replicate, fun l hl => List.eq_of_mem_replicate hl⟩
  case badConfiguration => exact launch_of_invalid regs startPc fun hc => hout ((config_valid_iff c).1 hc)
  case badImage =>
    exact launch_of_bad_image regs startPc ((config_valid_iff c).2 ⟨hways, hbits, hlow, hhigh, hexit⟩) himage

end Sys2Proof.Machine

/-! PROOFS. The cycle as a whole: what it fetches, what it commits, and what a fault leaves (40_pipeline_engine.md R201 to
R251; 60_exceptions.md R610). -/

namespace Sys2Proof.Machine

/-! ## Fetch (R210, R211) -/

/-- Settles O8: the fetch stage delivers the instruction, and a step is the meaning of what it delivers. -/
theorem stepRunsTheDecodedInstruction : Obligations.StepRunsTheDecodedInstruction :=
  fun _ _ hrun halign hbounds hdecode => step_of_fetch hrun (fetchInstr_ok_iff.2 ⟨halign, hbounds, hdecode⟩)

/-- A program counter that does not pass the checks of an access faults whatever memory the fetch stage reads. -/
theorem step_of_bad_pc {s : State} {f : Fault} (hrun : s.status = .running)
    (hf : checkAccess s.cfg.memSize .fetch s.pc 4 = some f) : step s = .fault f :=
  step_of_fetch_fault hrun (by rw [fetchInstr, memRead_of_fault (n := .word) _ hf])

/-- Settles O11: the fetch is a checked read, and its fault is reported before any other. -/
theorem fetchAddressFaults : Obligations.FetchAddressFaults := fun _ hrun =>
  ⟨fun h => step_of_bad_pc hrun (checkAccess_of_misaligned h),
    fun ha hb => step_of_bad_pc hrun (checkAccess_of_out_of_bounds ha hb)⟩

/-! ## A fatal condition (R610), and a probe by the host (R487) -/

/-- Settles O13: the report carries the state with its status set, and that state is not running. -/
theorem fatalCommitsNothing : Obligations.FatalCommitsNothing := by
  intro s f h
  refine ⟨by rw [advanceCycle, h]; rfl, step_of_not_running ?_⟩
  rintro ⟨⟩

/-- Settles O53: the answer of a host probe is that of a probe of the cache, put back into the state. -/
theorem hostProbeChangesTheCacheOnly : Obligations.HostProbeChangesTheCacheOnly := by
  intro s u a r h
  unfold hostProbe at h
  cases hp : probe s.cfg s.cache a with
  | error f => simp [hp] at h
  | ok q =>
    rw [hp] at h
    cases h
    exact ⟨rfl, rfl⟩

/-! ## The multiply and divide rows without `M_EXT` (R440, R160) -/

theorem exec_of_not_admitted {s : State} {i : Instr} (hrun : s.status = .running)
    (hadm : i.admitted s.cfg.mExt = false) : exec i s = .fault (.decode s.pc (encode i)) := by
  rw [exec_eq_enterPipeline, enterPipeline, hrun, hadm]
  rfl

/-- The word of an instruction belongs to the instruction's own row and, no two rows matching one word, to no other. -/
theorem matchesRow_encode_iff {i : Instr} (heven : i.offsetEven = true) (k : Mnemonic) :
    matchesRow k (encode i) = true ↔ k = i.mnemonic := by
  have hdecode := decodeOfEncode true i (wellFormed_iff.2 ⟨heven, fun _ => rfl⟩)
  obtain ⟨hrow, -⟩ := rowAdmits_of_decode hdecode
  refine ⟨fun hk => matchesRow_unique hk hrow, ?_⟩
  rintro rfl
  exact hrow

/-- Settles O48: `exec` refuses a row that the machine does not have, and the word of the instruction is of that row
alone. -/
theorem multiplyAndDivideNeedTheExtension : Obligations.MultiplyAndDivideNeedTheExtension := by
  intro s rd rs1 rs2 hrun hext i hi
  obtain ⟨hisM, heven⟩ : i.mnemonic.isM = true ∧ i.offsetEven = true := by fin_cases hi <;> exact ⟨rfl, rfl⟩
  refine ⟨exec_of_not_admitted hrun (by simp [Instr.admitted, hisM, hext]), fun halign hbounds hword => ?_⟩
  refine wordOfNoRowFaults s (encode i) hrun halign hbounds hword fun k hk => ?_
  obtain rfl := (matchesRow_encode_iff heven k).1 hk
  exact ⟨hisM, hext⟩

/-! ## What a cycle commits (R240, R245) -/

/-- The counters of a cycle, with the forwards counted operand by operand. -/
theorem nextCounters_by_operand (s : State) :
    nextCounters s =
      { cycles := s.ctr.cycles + 1
        stalls := s.ctr.stalls + (if hazardDetect s = true then 1 else 0)
        branchesTaken := s.ctr.branchesTaken + (if s.exmem.taken = true then 1 else 0)
        fwdEx := s.ctr.fwdEx + (if (forward1 s).2 = .ex then 1 else 0) + (if (forward2 s).2 = .ex then 1 else 0)
        fwdWb := s.ctr.fwdWb + (if (forward1 s).2 = .wb then 1 else 0) + (if (forward2 s).2 = .wb then 1 else 0) } := by
  simp only [nextCounters, countSource, Nat.add_assoc]

/-- IDEX after the cycle, with the register file that the decode stage reads written out (R204). -/
theorem nextIdEx_eq {s : State} {x : RegFile} (hx : x = writebackRegs s) :
    nextIdEx s =
      if s.exmem.taken || hazardDetect s then bubbleIdEx
      else
        { inst := s.ifid.inst, pc := s.ifid.pc, pc4 := s.ifid.pc4, ctl := ctlOf s.ifid.inst, imm := s.ifid.inst.imm,
          v1 := (if s.cfg.rfWbBeforeDecode then x else s.x).read (ctlOf s.ifid.inst).rs1,
          v2 := (if s.cfg.rfWbBeforeDecode then x else s.x).read (ctlOf s.ifid.inst).rs2 } := by
  subst hx
  rw [nextIdEx]
  cases s.exmem.taken <;> cases hazardDetect s <;> rfl

/-- Settles O14: when no stage raises the cycle commits, and the fields of the state are those of `commit`. -/
theorem everyInstructionEntersThePipeline : Obligations.EveryInstructionEntersThePipeline := by
  intro i s e m x term hrun hadm he hm hw
  obtain ⟨hx, -, -⟩ := writebackStage_ok_iff.1 hw
  exact ⟨_, exec_next_iff.2 ⟨hrun, hadm, e, m, x, term, he, hm, hw, rfl⟩, rfl, rfl, rfl, rfl, rfl, rfl, rfl, rfl,
    nextIdEx_eq hx, rfl, nextCounters_by_operand s⟩

/-- Settles O15: the epilogue looks at the redirect before the stall; what the memory stage hands on it leaves alone. -/
theorem epilogueOfTheCycle : Obligations.EpilogueOfTheCycle := by
  intro i s t h
  obtain ⟨hpc, hifid, hidex, -⟩ := exec_next_epilogue h
  obtain ⟨-, -, e, m, x, term, -, hm, hw, ht⟩ := exec_next_iff.1 h
  obtain ⟨hx, -, -⟩ := writebackStage_ok_iff.1 hw
  have htx : t.x = writebackRegs s := by rw [ht, commit_x, hx]
  refine ⟨⟨m, hm, by rw [ht, commit_memwb]⟩, ?_⟩
  rw [hpc, hifid, hidex]
  split
  case isTrue htaken =>
    refine ⟨by rw [nextPc, htaken]; rfl, by rw [nextIfId, htaken]; rfl, by rw [nextIdEx, htaken]; rfl, ?_⟩
    rw [ht, commit_exmem, nextExMem, htaken]
    rfl
  case isFalse htaken =>
    have hno : s.exmem.taken = false := by simpa using htaken
    refine ⟨exec_next_exmem h hno, ?_⟩
    split
    case isTrue hstall =>
      exact ⟨nextPc_of_stall hno hstall, nextIfId_of_stall hno hstall _, nextIdEx_of_stall hno hstall⟩
    case isFalse hstall =>
      have hgo : hazardDetect s = false := by simpa using hstall
      refine ⟨by rw [nextPc, hno, hgo]; rfl, by rw [nextIfId, hno, hgo]; rfl, ?_⟩
      rw [nextIdEx_eq htx, hno, hgo]
      rfl

/-- Settles O16: the counters are the commit's, whatever the epilogue does with the latches. -/
theorem countersOfTheCycle : Obligations.CountersOfTheCycle := by
  intro i s t h
  obtain ⟨-, -, -, hctr⟩ := exec_next_epilogue h
  obtain ⟨-, -, e, m, x, term, -, -, -, ht⟩ := exec_next_iff.1 h
  rw [hctr, nextCounters_by_operand]
  exact ⟨rfl, rfl, rfl, rfl, rfl, by rw [ht, commit_cfg]⟩

/-- Settles O30: of the parts of `commit`, IFID alone is made from the instruction that the fetch stage delivers. -/
theorem fetchedInstructionOnlyEntersIfId : Obligations.FetchedInstructionOnlyEntersIfId := by
  intro i j s t h hadm
  obtain ⟨hrun, -, e, m, x, term, he, hm, hw, rfl⟩ := exec_next_iff.1 h
  exact ⟨_, exec_next_iff.2 ⟨hrun, hadm, e, m, x, term, he, hm, hw, rfl⟩, rfl⟩

/-! ## The memory stage (R220) -/

/-- The low bytes of a zero-extended value are the value. -/
theorem extract_zeroExtend {n : Nat} (v : BitVec n) (hn : n ≤ 32) : (v.zeroExtend 32).extractLsb' 0 n = v := by
  rw [BitVec.zeroExtend, BitVec.extractLsb'_setWidth_of_le (by omega), extract_whole]

section
variable (m : Memory) (a : Nat) (signed : Bool)

theorem extendLoad_byte :
    extendLoad .byte signed (m.readWidth a .byte) =
      if signed = true then (m.byte a).signExtend 32 else (m.byte a).zeroExtend 32 := by
  cases signed with
  | false => rfl
  | true => exact congrArg (BitVec.signExtend 32) (extract_zeroExtend _ (by decide))

theorem extendLoad_half :
    extendLoad .half signed (m.readWidth a .half) =
      if signed = true then (m.byte (a + 1) ++ m.byte a).signExtend 32
      else (m.byte (a + 1) ++ m.byte a).zeroExtend 32 := by
  cases signed with
  | false => rfl
  | true => exact congrArg (BitVec.signExtend 32) (extract_zeroExtend _ (by decide))

theorem extendLoad_word :
    extendLoad .word signed (m.readWidth a .word) = m.byte (a + 3) ++ m.byte (a + 2) ++ m.byte (a + 1) ++ m.byte a := by
  cases signed <;> rfl

end

/-- What the memory stage of a load gives. -/
theorem memoryStage_of_load {s : State} {m : MemOut} (hm : memoryStage s = .ok m) (hr : s.exmem.ctl.memRead = true) :
    m.mem = s.mem ∧
    m.latch.md = extendLoad s.exmem.ctl.width s.exmem.ctl.loadSigned
      (s.mem.readWidth s.exmem.alu.toNat s.exmem.ctl.width) := by
  rcases memoryStage_ok_cases hm with ⟨-, -, hmem, -, hl⟩ | ⟨hr', -⟩ | ⟨hr', -⟩
  · exact ⟨hmem, by rw [hl]; rfl⟩
  · simp [hr] at hr'
  · simp [hr] at hr'

/-- What the memory stage of a store gives. -/
theorem memoryStage_of_store {s : State} {m : MemOut} (hm : memoryStage s = .ok m) (hr : s.exmem.ctl.memRead = false)
    (hw : s.exmem.ctl.memWrite = true) :
    m.mem = s.mem.writeWidth s.exmem.alu.toNat s.exmem.sv s.exmem.ctl.width ∧ m.latch.md = 0#32 := by
  rcases memoryStage_ok_cases hm with ⟨hr', -⟩ | ⟨-, -, -, hmem, -, hl⟩ | ⟨-, hw', -⟩
  · simp [hr] at hr'
  · exact ⟨hmem, by rw [hl]; rfl⟩
  · simp [hw] at hw'

/-- Settles O18: MEMWB and memory of a cycle are those of its memory stage. -/
theorem memoryStageOfTheCycle : Obligations.MemoryStageOfTheCycle := by
  intro i s t h
  obtain ⟨-, -, e, m, x, term, -, hm, -, rfl⟩ := exec_next_iff.1 h
  rw [commit_memwb, commit_mem]
  refine ⟨memoryStage_latch hm, fun hr => ?load, fun hr hw hwf => ?store, fun hr hw => ?neither⟩
  case load =>
    obtain ⟨hmem, hmd⟩ := memoryStage_of_load hm hr
    refine ⟨hmem, fun hwidth => ?_, fun hwidth => ?_, fun hwidth => ?_⟩ <;> rw [hmd, hwidth]
    · exact extendLoad_byte ..
    · exact extendLoad_half ..
    · exact extendLoad_word ..
  case store =>
    obtain ⟨hmem, hmd⟩ := memoryStage_of_store hm hr hw
    rw [hmem]
    exact ⟨hmd, Memory.byte_writeWidth_inside hwf _ _ _, Memory.byte_writeWidth_outside hwf _ _ _⟩
  case neither =>
    rw [memoryStage_of_no_access hr hw] at hm
    cases hm
    exact ⟨rfl, rfl⟩

end Sys2Proof.Machine

/-! PROOFS. The execute stage of the arithmetic instructions, and of loads, stores, transfers, ECALL and the bubble
(40_pipeline_engine.md R218, R219; 42 to 46). -/

namespace Sys2Proof.Machine

/-! ## Operands (R218, R311) -/

theorem shiftAmount_eq (b : Word) : shiftAmount b = b.toNat % 32 := by
  simp [shiftAmount, BitVec.extractLsb'_toNat]

theorem shiftAmount_zeroExtend (shamt : BitVec 5) : shiftAmount (shamt.zeroExtend 32) = shamt.toNat :=
  congrArg BitVec.toNat (extract_zeroExtend shamt (by decide))

theorem boolWord_lessSigned (a b : Word) : boolWord (lessSigned a b) = if a.toInt < b.toInt then 1#32 else 0#32 := by
  simp [boolWord, lessSigned]

theorem boolWord_lessUnsigned (a b : Word) :
    boolWord (lessUnsigned a b) = if a.toNat < b.toNat then 1#32 else 0#32 := by
  simp [boolWord, lessUnsigned]

section
variable {d : IdExLatch} {b v : Word} (f : Word → Word)

/-- A result computed from the second operand, of an instruction that has a second register. -/
theorem value_of_register (h : d.ctl.immOp2 = false) (hv : f b = v) :
    (.ok (.value (f (operandB d b))) : Except Fault ExecOut) = .ok (.value v) := by
  rw [operandB_of_register h, hv]

/-- A result computed from the second operand, of an instruction that has an immediate in its place. -/
theorem value_of_immediate {imm : Word} (h : d.ctl.immOp2 = true) (himm : d.imm = imm) (hv : f imm = v) :
    (.ok (.value (f (operandB d b))) : Except Fault ExecOut) = .ok (.value v) := by
  rw [operandB, if_pos h, himm, hv]

end

/-! ## The immediate of an encoded instruction (R170) -/

section
variable (f3 : BitVec 3) (op : BitVec 7) (rd rs1 rs2 : Reg) (imm : BitVec 12)

theorem immOf_encodeI : immOf .I (encodeI f3 op rd rs1 imm) = imm.signExtend 32 :=
  congrArg (BitVec.signExtend 32) (encodeI_imm ..)

theorem immOf_encodeI_load : immOf .L (encodeI f3 op rd rs1 imm) = imm.signExtend 32 :=
  congrArg (BitVec.signExtend 32) (encodeI_imm ..)

theorem immOf_encodeR_shift (f7 : BitVec 7) (shamt : BitVec 5) :
    immOf .IS (encodeR f7 f3 op rd rs1 shamt) = shamt.zeroExtend 32 :=
  congrArg (BitVec.zeroExtend 32) (encodeR_rs2 ..)

theorem immOf_encodeS : immOf .S (encodeS f3 op rs1 rs2 imm) = imm.signExtend 32 :=
  congrArg (BitVec.signExtend 32) (encodeS_imm ..)

theorem immOf_encodeB {off : BitVec 13} (heven : off.getLsbD 0 = false) :
    immOf .B (encodeB f3 op rs1 rs2 off) = off.signExtend 32 :=
  congrArg (BitVec.signExtend 32) (encodeB_imm _ _ _ _ _ heven)

theorem immOf_encodeU (imm20 : BitVec 20) : immOf .U (encodeU op rd imm20) = imm20 ++ 0#12 :=
  congrArg (· ++ 0#12) (encodeU_imm ..)

theorem immOf_encodeJ {off : BitVec 21} (heven : off.getLsbD 0 = false) :
    immOf .J (encodeJ op rd off) = off.signExtend 32 :=
  congrArg (BitVec.signExtend 32) (encodeJ_imm _ _ _ heven)

end

/-! ## The execute stage (R219) -/

/-- Settles O21: each operation is a function of its second operand, which is the second register or the immediate. -/
theorem executeStageOfArithmetic : Obligations.ExecuteStageOfArithmetic := by
  intro c pc x a b rd rs1 rs2 imm shamt imm20 p hp
  refine executeStage_of_value ?_
  fin_cases hp
  · exact value_of_register (a + ·) rfl rfl
  · exact value_of_register (a - ·) rfl rfl
  · exact value_of_register (a <<< shiftAmount ·) rfl (by rw [shiftAmount_eq])
  · exact value_of_register (fun b => boolWord (lessSigned a b)) rfl (boolWord_lessSigned a b)
  · exact value_of_register (fun b => boolWord (lessUnsigned a b)) rfl (boolWord_lessUnsigned a b)
  · exact value_of_register (a ^^^ ·) rfl rfl
  · exact value_of_register (a >>> shiftAmount ·) rfl (by rw [shiftAmount_eq])
  · exact value_of_register (a.sshiftRight <| shiftAmount ·) rfl (by rw [shiftAmount_eq])
  · exact value_of_register (a ||| ·) rfl rfl
  · exact value_of_register (a &&& ·) rfl rfl
  · exact value_of_immediate (a + ·) rfl (immOf_encodeI ..) rfl
  · exact value_of_immediate (fun b => boolWord (lessSigned a b)) rfl (immOf_encodeI ..) (boolWord_lessSigned a _)
  · exact value_of_immediate (fun b => boolWord (lessUnsigned a b)) rfl (immOf_encodeI ..) (boolWord_lessUnsigned a _)
  · exact value_of_immediate (a ^^^ ·) rfl (immOf_encodeI ..) rfl
  · exact value_of_immediate (a ||| ·) rfl (immOf_encodeI ..) rfl
  · exact value_of_immediate (a &&& ·) rfl (immOf_encodeI ..) rfl
  · exact value_of_immediate (a <<< shiftAmount ·) rfl (immOf_encodeR_shift ..) (by rw [shiftAmount_zeroExtend])
  · exact value_of_immediate (a >>> shiftAmount ·) rfl (immOf_encodeR_shift ..) (by rw [shiftAmount_zeroExtend])
  · exact value_of_immediate (a.sshiftRight <| shiftAmount ·) rfl (immOf_encodeR_shift ..)
      (by rw [shiftAmount_zeroExtend])
  · exact congrArg (fun v => Except.ok (ExecOut.value v)) (immOf_encodeU ..)
  · exact congrArg (fun v => Except.ok (ExecOut.value (pc + v))) (immOf_encodeU ..)

/-- Settles O22: addresses and targets are sums with the immediate; BGE and BGEU hold where BLT and BLTU do not. -/
theorem executeStageOfTheOthers : Obligations.ExecuteStageOfTheOthers := by
  intro c pc x a b rd rs1 rs2 imm off joff heven hjeven p hp
  refine executeStage_ok_iff.2 ⟨⟨p.2.1, p.2.2.1, p.2.2.2⟩, ?_, rfl⟩
  have haddress {v : Word} (hv : v = imm.signExtend 32) :
      (.ok (.value (a + v)) : Except Fault ExecOut) = .ok (.value (a + imm.signExtend 32)) := by rw [hv]
  have hbranch {t t' : Bool} {v : Word} (ht : t = t') (hv : v = off.signExtend 32) :
      (.ok (.branch t (pc + v)) : Except Fault ExecOut) = .ok (.branch t' (pc + off.signExtend 32)) := by rw [ht, hv]
  fin_cases hp
  · exact haddress (immOf_encodeI_load ..)
  · exact haddress (immOf_encodeI_load ..)
  · exact haddress (immOf_encodeI_load ..)
  · exact haddress (immOf_encodeI_load ..)
  · exact haddress (immOf_encodeI_load ..)
  · exact haddress (immOf_encodeS ..)
  · exact haddress (immOf_encodeS ..)
  · exact haddress (immOf_encodeS ..)
  · exact hbranch rfl (immOf_encodeB _ _ _ _ heven)
  · exact hbranch rfl (immOf_encodeB _ _ _ _ heven)
  · exact hbranch rfl (immOf_encodeB _ _ _ _ heven)
  · exact hbranch (condBge_eq a b) (immOf_encodeB _ _ _ _ heven)
  · exact hbranch rfl (immOf_encodeB _ _ _ _ heven)
  · exact hbranch (condBgeu_eq a b) (immOf_encodeB _ _ _ _ heven)
  · exact congrArg (fun v => Except.ok (ExecOut.jump (pc + 4#32) (pc + v))) (immOf_encodeJ _ _ hjeven)
  · exact congrArg (fun v => Except.ok (ExecOut.jump (pc + 4#32) (a + v))) (immOf_encodeI ..)
  · rfl
  · rfl

end Sys2Proof.Machine

/-! PROOFS. Forwarding in program order, the flush behind a redirect, and the cache (41_hazard_forwarding.md R280, R281;
40_pipeline_engine.md R242; 48_cache_engine.md R491; 10_state.md R63). -/

namespace Sys2Proof.Machine

/-! ## Forwarding (R280, R281) -/

/-- Behind an instruction in EXMEM that is no load of `r`, and one in MEMWB, an operand is the value that its register has
once both have retired. -/
theorem forwardFrom_eq_retired {e : ExMemLatch} {w m : MemWbLatch} {x : RegFile} {r : Reg} (hctl : m.ctl = e.ctl)
    (halu : m.alu = e.alu) (hload : e.ctl.memRead = true → e.ctl.rd ≠ 0#5 → r ≠ e.ctl.rd) :
    (forwardFrom e w r (x.read r)).1 = RegFile.read (m.retire (w.retire x)) r := by
  rw [MemWbLatch.read_retire, MemWbLatch.read_retire, hctl, forwardFrom]
  by_cases hex : suppliesEx e r = true
  · obtain ⟨hwrites, hrd, hr, rfl⟩ := suppliesEx_iff.1 hex
    rw [if_pos hex, if_pos ⟨hwrites, hrd, rfl⟩, writebackValue, hctl, hr, halu]
    rfl
  · have hnear : ¬(e.ctl.writesRf = true ∧ e.ctl.rd ≠ 0#5 ∧ r = e.ctl.rd) := by
      rintro ⟨hwrites, hrd, rfl⟩
      cases hr : e.ctl.memRead with
      | true => exact hload hr hrd rfl
      | false => exact hex (suppliesEx_iff.2 ⟨hwrites, hrd, hr, rfl⟩)
    rw [if_neg hex, if_neg hnear]
    simp only [suppliesWb_iff, eq_comm (a := r), apply_ite Prod.fst]

/-- Settles O28: the decoded values are those of the register file, and no load in EXMEM has a consumer behind it. -/
theorem operandsAreInProgramOrder : Obligations.OperandsAreInProgramOrder := by
  intro s m hinv hwb hm
  obtain ⟨hv1, hv2⟩ := hinv.operands hwb
  obtain ⟨-, -, hctl, halu⟩ := memoryStage_latch hm
  rw [forward1, forward2, hv1, hv2]
  refine ⟨forwardFrom_eq_retired hctl halu fun hr hrd => ?_, forwardFrom_eq_retired hctl halu fun hr hrd => ?_⟩
  · exact (hinv.loadUse hr hrd).1
  · exact (hinv.loadUse hr hrd).2

/-! ## What bubbles in the latches leave unchanged (R57, R242) -/

section
variable {i : Instr} {s t : State} (h : exec i s = .next t)
include h

theorem exec_next_of_exmem_bubble (hbubble : s.exmem.ctl = Ctl.bubble) :
    t.mem = s.mem ∧ t.cache = s.cache ∧ t.memwb.ctl = Ctl.bubble := by
  obtain ⟨-, -, e, m, x, term, -, hm, -, rfl⟩ := exec_next_iff.1 h
  rw [memoryStage_of_no_access (by rw [hbubble]; rfl) (by rw [hbubble]; rfl)] at hm
  cases hm
  exact ⟨rfl, rfl, hbubble⟩

theorem exec_next_of_memwb_bubble (hbubble : s.memwb.ctl = Ctl.bubble) : t.x = s.x := by
  obtain ⟨-, -, e, m, x, term, -, -, hw, rfl⟩ := exec_next_iff.1 h
  rw [writebackStage_of_bubble hbubble] at hw
  cases hw
  rfl

theorem exec_next_of_idex_bubble (hno : s.exmem.taken = false) (hinst : s.idex.inst = bubbleView)
    (hctl : s.idex.ctl = Ctl.bubble) : t.exmem.ctl = Ctl.bubble ∧ t.exmem.taken = false := by
  obtain ⟨e, he, heCtl, heNo⟩ :=
    executeStage_of_bubble (c := s.cfg) (a := (forward1 s).1) (b := (forward2 s).1) hinst
  obtain rfl : e = t.exmem := Except.ok.inj (he.symm.trans (exec_next_exmem h hno))
  exact ⟨heCtl.trans hctl, heNo⟩

/-- Without a redirect and behind a bubble in IDEX, the fetched instruction enters IFID and the one in IFID is decoded. -/
theorem exec_next_front (hno : s.exmem.taken = false) (hctl : s.idex.ctl = Ctl.bubble) :
    t.ifid = fetchLatch s.pc (viewOf i) ∧ t.idex = decodeStage s.ifid (decodeRegs s) := by
  have hgo := hazardDetect_of_idex_bubble hctl
  obtain ⟨-, hifid, hidex, -⟩ := exec_next_epilogue h
  exact ⟨by rw [hifid, nextIfId, hno, hgo]; rfl, by rw [hidex, nextIdEx_of_no_stall hno hgo]⟩

end

/-- A redirect leaves the target as the program counter and bubbles in the three younger latches (R240). -/
theorem exec_next_of_redirect {i : Instr} {s t : State} (h : exec i s = .next t) (htaken : s.exmem.taken = true) :
    t.pc = s.exmem.target ∧ t.ifid = bubbleIfId ∧ t.idex = bubbleIdEx ∧ t.exmem = bubbleExMem := by
  obtain ⟨-, hepilogue⟩ := epilogueOfTheCycle i s t h
  rwa [if_pos htaken] at hepilogue

/-- Settles O29: the three flushed latches go through the memory stage as bubbles, one in each of the three cycles. -/
theorem redirectDiscardsTheThreeYounger : Obligations.RedirectDiscardsTheThreeYounger := by
  intro i j k l s t u v w htaken hst htu huv hvw
  obtain ⟨hpc, htIfid, htIdex, htExmem⟩ := exec_next_of_redirect hst htaken
  have htCtl : t.idex.ctl = Ctl.bubble := by rw [htIdex]; rfl
  have htNo : t.exmem.taken = false := by rw [htExmem]; rfl
  obtain ⟨huMem, huCache, huMemwb⟩ := exec_next_of_exmem_bubble htu (by rw [htExmem]; rfl)
  obtain ⟨huIfid, huIdex⟩ := exec_next_front htu htNo htCtl
  obtain ⟨huExmem, huNo⟩ := exec_next_of_idex_bubble htu htNo (by rw [htIdex]; rfl) htCtl
  have huInst : u.idex.inst = bubbleView := by rw [huIdex, htIfid]; rfl
  have huCtl : u.idex.ctl = Ctl.bubble := by rw [huIdex, htIfid]; rfl
  obtain ⟨hvMem, hvCache, hvMemwb⟩ := exec_next_of_exmem_bubble huv huExmem
  obtain ⟨-, hvIdex⟩ := exec_next_front huv huNo huCtl
  obtain ⟨hvExmem, hvNo⟩ := exec_next_of_idex_bubble huv huNo huInst huCtl
  have hvInst : v.idex.inst = viewOf j := by rw [hvIdex, huIfid]; rfl
  obtain ⟨hwMem, hwCache, hwMemwb⟩ := exec_next_of_exmem_bubble hvw hvExmem
  obtain ⟨hwInst, -⟩ := executeStage_latch (exec_next_exmem hvw hvNo)
  have hvx := exec_next_of_memwb_bubble huv huMemwb
  have hwx := exec_next_of_memwb_bubble hvw hvMemwb
  rw [hpc] at huIfid
  exact ⟨hpc, huIfid, hvInst, hwInst.trans hvInst, huMemwb, hvMemwb, hwMemwb, huMem, hvMem.trans huMem,
    hwMem.trans (hvMem.trans huMem), huCache, hvCache.trans huCache, hwCache.trans (hvCache.trans huCache), hvx,
    hwx.trans hvx⟩

/-! ## A second probe of a block (48_cache_engine.md R491) -/

/-- Every probe that answers leaves a valid line of the block that it named. -/
theorem probeSet_leaves_line {c : Config} {S S' : CacheSet} {a : Word} {r : ProbeResult}
    (h : probeSet c S a = .ok (S', r)) : ∃ l ∈ S'.lines, l.valid = true ∧ l.tag = tagOf c a := by
  rcases probeSet_ok_cases h with ⟨i, l, hfind, hl, -, rfl⟩ | ⟨-, i, hfind, -, rfl⟩ | ⟨-, -, v, l, -, hl, -, rfl⟩
  case inl =>
    obtain ⟨l', hl', hmatch, -⟩ := getElem?_of_findIdx?_eq_some hfind
    obtain rfl : l' = l := Option.some.inj (hl'.symm.trans hl)
    obtain ⟨hi, -⟩ := List.getElem?_eq_some_iff.1 hl
    exact ⟨_, List.mem_set hi _, validWithTag_eq_true_iff.1 hmatch⟩
  case inr.inl =>
    obtain ⟨hi, -⟩ := List.findIdx?_eq_some_iff_getElem.1 hfind
    exact ⟨_, List.mem_set hi _, rfl, rfl⟩
  case inr.inr =>
    obtain ⟨hv, -⟩ := List.getElem?_eq_some_iff.1 hl
    exact ⟨_, List.mem_set hv _, rfl, rfl⟩

/-- A probe hits in a set that holds a valid line of the block. -/
theorem probeSet_hits {c : Config} {S : CacheSet} {a : Word} (h : ∃ l ∈ S.lines, l.valid = true ∧ l.tag = tagOf c a) :
    ∃ S', probeSet c S a = .ok (S', .hit) := by
  obtain ⟨l, hl, hline⟩ := h
  obtain ⟨S', r, hp⟩ := probeSet_total c S a (List.ne_nil_of_mem hl)
  rcases probeSet_ok_cases hp with ⟨-, -, -, -, rfl, -⟩ | ⟨hnone, -⟩ | ⟨hnone, -⟩
  · exact ⟨S', hp⟩
  · exact absurd hline (no_line_of_search_eq_none hnone l hl)
  · exact absurd hline (no_line_of_search_eq_none hnone l hl)

/-- Settles O50: the first probe leaves a valid line of the block in the set, and the second finds it. -/
theorem secondProbeOfABlockHits : Obligations.SecondProbeOfABlockHits := by
  intro c k k' a b r h htag hset
  obtain ⟨S, S', hS, hp, rfl⟩ := probe_ok_iff.1 h
  obtain ⟨S'', hhit⟩ := probeSet_hits (a := b) (htag ▸ probeSet_leaves_line hp)
  refine ⟨_, probe_ok_iff.2 ⟨S', S'', ?_, hhit, rfl⟩⟩
  rw [countProbe_sets, hset, List.getElem?_set_self (List.getElem?_eq_some_iff.1 hS).1]

/-! ## The memory stage of a load and of a store, by their checks (R220, R108) -/

section
variable {s : State} {f : Fault} {k : CacheState} {r : Option ProbeResult}

section
variable (hr : s.exmem.ctl.memRead = true)
include hr

theorem memoryStage_of_load_fault
    (hc : checkAccess s.cfg.memSize .load s.exmem.alu s.exmem.ctl.width.bytes = some f) :
    memoryStage s = .error f := by
  rw [memoryStage, if_pos hr, memoryLoad, memRead_of_fault _ hc]

theorem memoryStage_of_load_pass
    (hc : checkAccess s.cfg.memSize .load s.exmem.alu s.exmem.ctl.width.bytes = none)
    (hp : probeAccess s s.exmem.alu = .ok (k, r)) :
    memoryStage s = .ok
      { mem := s.mem, cache := k, probe := r
        latch := memWbOf s.exmem (extendLoad s.exmem.ctl.width s.exmem.ctl.loadSigned
          (s.mem.readWidth s.exmem.alu.toNat s.exmem.ctl.width)) } := by
  rw [memoryStage, if_pos hr, memoryLoad, memRead_of_pass _ hc]
  dsimp only
  rw [hp]

end

section
variable (hr : s.exmem.ctl.memRead = false) (hw : s.exmem.ctl.memWrite = true)
include hr hw

theorem memoryStage_of_store_fault
    (hc : checkAccess s.cfg.memSize .store s.exmem.alu s.exmem.ctl.width.bytes = some f) :
    memoryStage s = .error f := by
  rw [memoryStage, hr, if_neg Bool.false_ne_true, if_pos hw, memoryStore, memWrite_of_fault _ _ hc]

theorem memoryStage_of_store_pass
    (hc : checkAccess s.cfg.memSize .store s.exmem.alu s.exmem.ctl.width.bytes = none)
    (hp : probeAccess s s.exmem.alu = .ok (k, r)) :
    memoryStage s = .ok
      { mem := s.mem.writeWidth s.exmem.alu.toNat s.exmem.sv s.exmem.ctl.width, cache := k, probe := r
        latch := memWbOf s.exmem 0#32 } := by
  rw [memoryStage, hr, if_neg Bool.false_ne_true, if_pos hw, memoryStore, memWrite_of_pass _ _ hc]
  dsimp only
  rw [hp]

end

end

/-! ## The cache is never observed (R63, R119) -/

/-- The machine with another cache. -/
def State.withCache (s : State) (k : CacheState) : State := { s with cache := k }

section
variable {s : State} (hvalid : s.cfg.valid = true)
include hvalid

/-- With a well-formed cache the access of a load or a store to the cache does not raise, and keeps it well formed. -/
theorem probeAccess_total (hwf : CacheWf s.cfg s.cache) (a : Word) :
    ∃ k r, probeAccess s a = .ok (k, r) ∧ CacheWf s.cfg k ∧ Probed s a k := by
  cases hprobe : s.cfg.memProbe with
  | false => exact ⟨_, _, probeAccess_of_not_memProbe hprobe, hwf, by rw [Probed, if_neg (by simp [hprobe])]⟩
  | true =>
    obtain ⟨hways, -⟩ := (config_valid_iff _).1 hvalid
    obtain ⟨k, r, hp⟩ := probe_total (a := a) hways hwf
    refine ⟨k, some r, ?_, probe_keeps_cacheWf hwf hp, ?_⟩
    · rw [probeAccess, if_pos hprobe, hp]
    · rw [Probed, if_pos hprobe]
      exact ⟨r, hp⟩

variable (hs : CacheWf s.cfg s.cache) {k : CacheState} (hk : CacheWf s.cfg k)
include hs hk

/-- The memory stages of two machines that differ in their caches raise the same fault, or hand on the same but for the
cache and the probe result. -/
theorem memoryStage_withCache :
    (∃ f, memoryStage s = .error f ∧ memoryStage (s.withCache k) = .error f) ∨
    ∃ m k' r, memoryStage s = .ok m ∧ memoryStage (s.withCache k) = .ok { m with cache := k', probe := r } ∧
      CacheWf s.cfg m.cache ∧ CacheWf s.cfg k' := by
  obtain ⟨k₁, r₁, hp₁, hk₁, -⟩ := probeAccess_total hvalid hs s.exmem.alu
  obtain ⟨k₂, r₂, hp₂, hk₂, -⟩ := probeAccess_total (s := s.withCache k) hvalid hk s.exmem.alu
  cases hr : s.exmem.ctl.memRead with
  | true =>
    cases hc : checkAccess s.cfg.memSize .load s.exmem.alu s.exmem.ctl.width.bytes with
    | some f =>
      exact .inl ⟨f, memoryStage_of_load_fault hr hc, memoryStage_of_load_fault (s := s.withCache k) hr hc⟩
    | none =>
      exact .inr ⟨_, k₂, r₂, memoryStage_of_load_pass hr hc hp₁,
        memoryStage_of_load_pass (s := s.withCache k) hr hc hp₂, hk₁, hk₂⟩
  | false =>
    cases hw : s.exmem.ctl.memWrite with
    | true =>
      cases hc : checkAccess s.cfg.memSize .store s.exmem.alu s.exmem.ctl.width.bytes with
      | some f =>
        exact .inl ⟨f, memoryStage_of_store_fault hr hw hc, memoryStage_of_store_fault (s := s.withCache k) hr hw hc⟩
      | none =>
        exact .inr ⟨_, k₂, r₂, memoryStage_of_store_pass hr hw hc hp₁,
          memoryStage_of_store_pass (s := s.withCache k) hr hw hc hp₂, hk₁, hk₂⟩
    | false =>
      exact .inr ⟨_, k, none, memoryStage_of_no_access hr hw,
        memoryStage_of_no_access (s := s.withCache k) hr hw, hs, hk⟩

theorem fetchInstr_withCache : fetchInstr (s.withCache k) = fetchInstr s := by
  have hmem : fetchMemory (s.withCache k) = fetchMemory s := by
    rcases memoryStage_withCache hvalid hs hk with ⟨f, hm, hm'⟩ | ⟨m, k', r, hm, hm', -, -⟩
    · rw [fetchMemory_of_error hm, fetchMemory_of_error hm']
      rfl
    · rw [fetchMemory_of_ok hm, fetchMemory_of_ok hm']
      rfl
  rw [fetchInstr, hmem]
  rfl

end

/-- Two outcomes that differ in a well-formed cache at most, from states of the configuration `c`. -/
def AlikeButCache (c : Config) : Host.Outcome State Fault Refusal → Host.Outcome State Fault Refusal → Prop
  | .next t, o => ∃ k, o = .next (t.withCache k) ∧ t.cfg = c ∧ CacheWf c t.cache ∧ CacheWf c k
  | .fault f, o => o = .fault f
  | .refused r, o => o = .refused r

/-- One cycle does not observe the cache: no stage but the memory stage reads it, and that one hands it on. -/
theorem step_withCache {s : State} {k : CacheState} (hvalid : s.cfg.valid = true) (hs : CacheWf s.cfg s.cache)
    (hk : CacheWf s.cfg k) : AlikeButCache s.cfg (step s) (step (s.withCache k)) := by
  by_cases hrun : s.status = .running
  case neg =>
    rw [step_of_not_running hrun, step_of_not_running (s := s.withCache k) hrun]
    rfl
  have hfetch := fetchInstr_withCache hvalid hs hk
  cases hf : fetchInstr s with
  | error f =>
    rw [step_of_fetch_fault hrun hf, step_of_fetch_fault (s := s.withCache k) hrun (hfetch.trans hf)]
    rfl
  | ok i =>
    have hf' : fetchInstr (s.withCache k) = .ok i := hfetch.trans hf
    have hfault {f : Fault} (hc : cycle (viewOf i) s = .error f) (hc' : cycle (viewOf i) (s.withCache k) = .error f) :
        AlikeButCache s.cfg (step s) (step (s.withCache k)) := by
      rw [step_of_cycle_fault hrun hf hc, step_of_cycle_fault (s := s.withCache k) hrun hf' hc']
      rfl
    cases he : executeStage s.cfg s.idex (forward1 s).1 (forward2 s).1 with
    | error f => exact hfault (cycle_of_execute_fault he) (cycle_of_execute_fault (s := s.withCache k) he)
    | ok e =>
      rcases memoryStage_withCache hvalid hs hk with ⟨f, hm, hm'⟩ | ⟨m, k', r, hm, hm', hwf, hwf'⟩
      · exact hfault (cycle_of_memory_fault he hm) (cycle_of_memory_fault (s := s.withCache k) he hm')
      · cases hw : writebackStage s with
        | error f =>
          exact hfault (cycle_of_writeback_fault he hm hw) (cycle_of_writeback_fault (s := s.withCache k) he hm' hw)
        | ok p =>
          have hadm := admitted_of_fetchInstr hf
          have hnext := exec_next_iff.2 ⟨hrun, hadm, e, m, p.1, p.2, he, hm, hw, rfl⟩
          have hnext' := (exec_next_iff (s := s.withCache k)).2 ⟨hrun, hadm, e, _, p.1, p.2, he, hm', hw, rfl⟩
          rw [step_of_fetch hrun hf, step_of_fetch (s := s.withCache k) hrun hf', hnext, hnext']
          exact ⟨k', rfl, rfl, hwf, hwf'⟩

/-- Neither do several cycles. -/
theorem stepN_withCache (n : Nat) {s : State} {k : CacheState} (hvalid : s.cfg.valid = true)
    (hs : CacheWf s.cfg s.cache) (hk : CacheWf s.cfg k) :
    AlikeButCache s.cfg (stepN n s) (stepN n (s.withCache k)) := by
  induction n generalizing s k with
  | zero => exact ⟨k, rfl, rfl, hs, hk⟩
  | succ n ih =>
    have hstep := step_withCache hvalid hs hk
    rw [stepN, stepN]
    cases hst : step s with
    | next t =>
      rw [hst] at hstep
      obtain ⟨k', hst', hcfg, ht, hk'⟩ := hstep
      rw [hst']
      rw [← hcfg] at hvalid ht hk' ⊢
      exact ih hvalid ht hk'
    | fault f =>
      rw [hst] at hstep
      rw [show step (s.withCache k) = .fault f from hstep]
      rfl
    | refused r =>
      rw [hst] at hstep
      rw [show step (s.withCache k) = .refused r from hstep]
      rfl

/-- Settles O31: a run does not observe the cache, by induction on the number of cycles. -/
theorem cacheIsNeverObserved : Obligations.CacheIsNeverObserved := by
  intro n s k hvalid hs hk
  have hrun := stepN_withCache n hvalid hs hk
  cases hN : stepN n s with
  | next t =>
    rw [hN] at hrun
    obtain ⟨k', hN', -⟩ := hrun
    exact ⟨k', hN'⟩
  | fault f =>
    rw [hN] at hrun
    exact hrun
  | refused r =>
    rw [hN] at hrun
    exact hrun

end Sys2Proof.Machine

/-! PROOFS. Each instruction alone in the pipeline, from its fetch to its writeback (40_pipeline_engine.md R252; 42 to
47). -/

namespace Sys2Proof.Machine

/-! ## One cycle with bubbles behind the memory stage -/

/-- Behind the memory stage there are only bubbles. -/
structure BubblesBehind (s : State) : Prop where
  ifid : s.ifid.inst = bubbleView
  idexInst : s.idex.inst = bubbleView
  idexCtl : s.idex.ctl = Ctl.bubble

/-- `t` is `s` after a cycle that fetches `j`, makes the access `m` and writes the registers `x`, with bubbles behind the
memory stage and without a redirect. -/
structure DrainsTo (s : State) (j : Instr) (m : MemOut) (x : RegFile) (term : Bool) (t : State) : Prop where
  status : t.status = if term then .terminated else .running
  cfg : t.cfg = s.cfg
  x : t.x = x
  mem : t.mem = m.mem
  cache : t.cache = m.cache
  pc : t.pc = s.pc + 4#32
  ctr : t.ctr = { s.ctr with cycles := s.ctr.cycles + 1 }
  ifid : t.ifid = fetchLatch s.pc (viewOf j)
  idexInst : t.idex.inst = bubbleView
  idexCtl : t.idex.ctl = Ctl.bubble
  exmemCtl : t.exmem.ctl = Ctl.bubble
  exmemNo : t.exmem.taken = false
  memwb : t.memwb = m.latch

section
variable {s : State} {j : Instr} {m : MemOut} (hrun : s.status = .running) (hb : BubblesBehind s)
  (hf : fetchInstr s = .ok j)
include hrun hb hf

theorem step_drains {x : RegFile} {term : Bool} (hno : s.exmem.taken = false) (hm : memoryStage s = .ok m)
    (hw : writebackStage s = .ok (x, term)) : ∃ t, step s = .next t ∧ DrainsTo s j m x term t := by
  obtain ⟨e, he, heCtl, heNo⟩ :=
    executeStage_of_bubble (c := s.cfg) (a := (forward1 s).1) (b := (forward2 s).1) hb.idexInst
  obtain ⟨h1, h2⟩ : forward1 s = (s.idex.v1, .none) ∧ forward2 s = (s.idex.v2, .none) := by
    rw [forward1, forward2, hb.idexCtl]
    exact ⟨forwardFrom_zero .., forwardFrom_zero ..⟩
  have hgo := hazardDetect_of_idex_bubble hb.idexCtl
  have hidex : nextIdEx s = decodeStage s.ifid (decodeRegs s) := nextIdEx_of_no_stall hno hgo
  have hexmem : nextExMem s e = e := nextExMem_of_not_taken hno e
  refine ⟨commit s (viewOf j) e m x term, ?_, rfl, rfl, rfl, rfl, rfl, ?_, ?_, ?_, ?_, ?_, ?_, ?_, rfl⟩
  · rw [step_of_fetch hrun hf]
    exact exec_next_iff.2 ⟨hrun, admitted_of_fetchInstr hf, e, m, x, term, he, hm, hw, rfl⟩
  · rw [commit_pc, nextPc, hno, hgo]; rfl
  · rw [commit_ctr, nextCounters_eq hgo (by rw [h1]) (by rw [h2]), hno]; rfl
  · rw [commit_ifid, nextIfId, hno, hgo]; rfl
  · rw [commit_idex, hidex]; exact hb.ifid
  · rw [commit_idex, hidex, decodeStage, hb.ifid]; rfl
  · rw [commit_exmem, hexmem, heCtl]; exact hb.idexCtl
  · rw [commit_exmem, hexmem]; exact heNo

theorem step_drains_memory_fault {f : Fault} (hm : memoryStage s = .error f) : step s = .fault f := by
  obtain ⟨e, he, -, -⟩ :=
    executeStage_of_bubble (c := s.cfg) (a := (forward1 s).1) (b := (forward2 s).1) hb.idexInst
  exact step_of_cycle_fault hrun hf (cycle_of_memory_fault he hm)

theorem step_drains_writeback_fault {f : Fault} (hm : memoryStage s = .ok m) (hw : writebackStage s = .error f) :
    step s = .fault f := by
  obtain ⟨e, he, -, -⟩ :=
    executeStage_of_bubble (c := s.cfg) (a := (forward1 s).1) (b := (forward2 s).1) hb.idexInst
  exact step_of_cycle_fault hrun hf (cycle_of_writeback_fault he hm hw)

end

/-- After a cycle that fetches a bubble there are only bubbles behind the memory stage. -/
theorem DrainsTo.bubblesBehind {s t : State} {m : MemOut} {x : RegFile} {term : Bool}
    (h : DrainsTo s .bubble m x term t) : BubblesBehind t :=
  ⟨by rw [h.ifid]; rfl, h.idexInst, h.idexCtl⟩

/-- A zero word in the memory that the fetch stage reads is a bubble, whether or not it reads the store of this cycle
(R204, R425). -/
theorem fetchInstr_of_zeroWord_kept {s : State} {m : MemOut} (hm : memoryStage s = .ok m) (hz : ZeroWordAt s s.pc)
    (hkept : m.mem.readWidth s.pc.toNat .word = s.mem.readWidth s.pc.toNat .word) : fetchInstr s = .ok .bubble := by
  obtain ⟨halign, hbounds, hword⟩ := hz
  refine fetchInstr_ok_iff.2 ⟨halign, hbounds, ?_⟩
  rw [fetchMemory_of_ok hm]
  split_ifs
  · rw [hkept, hword]; exact decode_zero
  · rw [hword]; exact decode_zero

/-! ## The memory stage of an instruction alone in the pipeline -/

/-- What the memory stage makes of the latch `e`, alone in the pipeline. -/
def memoryAlone (s : State) (e : ExMemLatch) : Except Fault MemOut := memoryStage { s with exmem := e }

/-- After cycles that have written and probed nothing, the memory stage is that of the start. -/
theorem memoryStage_of_advanced {n : Nat} {s t : State} {e : ExMemLatch} (h : Advanced n s t) (he : t.exmem = e) :
    memoryStage t = memoryAlone s e := by
  simp only [memoryAlone, memoryStage, memoryLoad, memoryStore, probeAccess, h.cfg, h.mem, h.cache, he]

/-- `w` is `s` four cycles later: the instruction that was fetched in the cycle of `s` is in MEMWB as the access `m` of its
memory stage left it, and nothing else is in flight. -/
structure InWriteback (s : State) (m : MemOut) (w : State) : Prop where
  status : w.status = .running
  cfg : w.cfg = s.cfg
  x : w.x = s.x
  mem : w.mem = m.mem
  cache : w.cache = m.cache
  pc : w.pc = s.pc + 16#32
  ctr : w.ctr = { s.ctr with cycles := s.ctr.cycles + 4 }
  bubbles : BubblesBehind w
  exmemCtl : w.exmem.ctl = Ctl.bubble
  exmemNo : w.exmem.taken = false
  memwb : w.memwb = m.latch

section
variable {s : State} {i : Instr} {e : ExMemLatch} (h : ReadyForTransfer s) (hadm : i.admitted s.cfg.mExt = true)
  (he : executedAlone s i = .ok e)
include h hadm he

/-- An instruction that raises in its memory stage does so in the third cycle after the one that fetches it. -/
theorem faultsAfter_of_memory {f : Fault} (hm : memoryAlone s e = .error f) : FaultsAfter s i 2 f := by
  obtain ⟨t, v, hst, htv, hadv, hexmem, hifid, hidexInst, hidexCtl⟩ := exec_reaches_memory h hadm he
  obtain ⟨-, -, -, halign, hbounds, hword⟩ := h
  have hmv := (memoryStage_of_advanced hadv hexmem).trans hm
  have hpc : v.pc = s.pc + 12#32 := hadv.pc
  have hfetch : fetchInstr v = .ok .bubble := by
    rw [fetchInstr_ok_iff, fetchMemory_of_error hmv, hpc, hadv.cfg, hadv.mem, hword]
    exact ⟨halign, hbounds, decode_zero⟩
  exact ⟨t, v, hst, htv, hadv.x, hadv.mem, hadv.cache,
    step_drains_memory_fault hadv.status ⟨hifid, hidexInst, hidexCtl⟩ hfetch hmv⟩

variable {m : MemOut} (hno : e.taken = false) (hm : memoryAlone s e = .ok m)
  (h12 : m.mem.readWidth (s.pc + 12#32).toNat .word = s.mem.readWidth (s.pc + 12#32).toNat .word)
include hno hm h12

/-- An instruction that neither raises nor redirects is in its writeback stage three cycles after the one that fetches
it. -/
theorem exec_reaches_writeback : ∃ t w, exec i s = .next t ∧ stepN 3 t = .next w ∧ InWriteback s m w := by
  obtain ⟨t, v, hst, htv, hadv, hexmem, hifid, hidexInst, hidexCtl⟩ := exec_reaches_memory h hadm he
  obtain ⟨-, -, -, hz12⟩ := h
  have hmv := (memoryStage_of_advanced hadv hexmem).trans hm
  have hpc : v.pc = s.pc + 12#32 := hadv.pc
  have hfetch : fetchInstr v = .ok .bubble := by
    refine fetchInstr_of_zeroWord_kept hmv ?_ ?_
    · rw [ZeroWordAt, hpc, hadv.cfg, hadv.mem]; exact hz12
    · rw [hpc, hadv.mem]; exact h12
  obtain ⟨w, hvw, hw⟩ := step_drains hadv.status ⟨hifid, hidexInst, hidexCtl⟩ hfetch (by rw [hexmem, hno]) hmv
    (writebackStage_of_bubble hadv.memwb)
  refine ⟨t, w, hst, stepN_succ_of_next htv hvw, hw.status, hw.cfg.trans hadv.cfg, hw.x.trans hadv.x, hw.mem, hw.cache,
    ?_, ?_, hw.bubblesBehind, hw.exmemCtl, hw.exmemNo, hw.memwb⟩
  · rw [hw.pc, hpc, BitVec.add_assoc]; rfl
  · rw [hw.ctr, hadv.ctr]

end

end Sys2Proof.Machine

namespace Sys2Proof.Machine

/-! ## The writeback stage of an instruction alone in the pipeline -/

section
variable {s w : State} {m : MemOut} (hw : InWriteback s m w)
include hw

/-- Nothing is left for the memory stage. -/
theorem InWriteback.memoryStage :
    memoryStage w = .ok { mem := m.mem, cache := m.cache, probe := none, latch := memWbOf w.exmem 0#32 } := by
  rw [memoryStage_of_no_access (by rw [hw.exmemCtl]; rfl) (by rw [hw.exmemCtl]; rfl), hw.mem, hw.cache]

theorem InWriteback.writebackRegs : writebackRegs w = m.latch.retire s.x := by
  rw [writebackRegs_eq_retire, hw.memwb, hw.x]

/-- The cycle of the writeback stage fetches a bubble. -/
theorem InWriteback.fetchInstr (hz : ZeroWordAt s (s.pc + 16#32))
    (h16 : m.mem.readWidth (s.pc + 16#32).toNat .word = s.mem.readWidth (s.pc + 16#32).toNat .word) :
    fetchInstr w = .ok .bubble := by
  obtain ⟨halign, hbounds, hword⟩ := hz
  refine fetchInstr_of_zeroWord_kept hw.memoryStage ⟨?_, ?_, ?_⟩ (by rw [hw.mem])
  · rw [hw.pc]; exact halign
  · rw [hw.pc, hw.cfg]; exact hbounds
  · rw [hw.pc, hw.mem, h16]; exact hword

end

/-- `u` is `s` five cycles later: the instruction that was fetched in the cycle of `s` made the access `m` and wrote the
registers `x`, and `term` says whether it ended the run. -/
structure RetiredWith (s : State) (m : MemOut) (x : RegFile) (term : Bool) (u : State) : Prop where
  x : u.x = x
  mem : u.mem = m.mem
  cache : u.cache = m.cache
  cfg : u.cfg = s.cfg
  pc : u.pc = s.pc + 20#32
  ctr : u.ctr = { s.ctr with cycles := s.ctr.cycles + 5 }
  status : u.status = if term then .terminated else .running
  bubbles : BubblesBehind u
  exmemCtl : u.exmem.ctl = Ctl.bubble
  exmemNo : u.exmem.taken = false
  memwbCtl : u.memwb.ctl = Ctl.bubble

theorem RetiredWith.retired {s u : State} {m : MemOut} {x : RegFile} (h : RetiredWith s m x false u) : Retired s u :=
  ⟨h.cfg, h.pc, h.ctr, h.status, h.bubbles.ifid, h.bubbles.idexInst, h.bubbles.idexCtl, h.exmemCtl, h.exmemNo,
    h.memwbCtl⟩

section
variable {s : State} {i : Instr} {e : ExMemLatch} {m : MemOut} (h : Ready s) (hadm : i.admitted s.cfg.mExt = true)
  (he : executedAlone s i = .ok e) (hno : e.taken = false) (hm : memoryAlone s e = .ok m)
  (h12 : m.mem.readWidth (s.pc + 12#32).toNat .word = s.mem.readWidth (s.pc + 12#32).toNat .word)
  (h16 : m.mem.readWidth (s.pc + 16#32).toNat .word = s.mem.readWidth (s.pc + 16#32).toNat .word)
include h hadm he hno hm h12 h16

/-- An instruction that does not raise before its writeback stage does there what its latch says. -/
theorem exec_retires {term : Bool} (hterm : term = m.latch.ctl.syscall)
    (hexit : m.latch.ctl.syscall = true → RegFile.read (m.latch.retire s.x) s.cfg.exitArgReg = s.cfg.exitCode) :
    ∃ t u, exec i s = .next t ∧ stepN 4 t = .next u ∧ RetiredWith s m (m.latch.retire s.x) term u := by
  obtain ⟨hready, hz16⟩ := h
  obtain ⟨t, w, hst, htw, hw⟩ := exec_reaches_writeback hready hadm he hno hm h12
  have hwb : writebackStage w = .ok (m.latch.retire s.x, term) := by
    rw [writebackStage_ok_iff, hw.writebackRegs, hw.memwb, hw.cfg]
    exact ⟨rfl, hterm, hexit⟩
  obtain ⟨u, hwu, hu⟩ := step_drains hw.status hw.bubbles (hw.fetchInstr hz16 h16) hw.exmemNo hw.memoryStage hwb
  refine ⟨t, u, hst, stepN_succ_of_next htw hwu, hu.x, hu.mem, hu.cache, hu.cfg.trans hw.cfg, ?_, ?_, hu.status,
    hu.bubblesBehind, hu.exmemCtl, hu.exmemNo, ?_⟩
  · rw [hu.pc, hw.pc, BitVec.add_assoc]; rfl
  · rw [hu.ctr, hw.ctr]
  · rw [hu.memwb]; exact hw.exmemCtl

/-- A system call with an unsupported code raises in its writeback stage (R422). -/
theorem faultsAfter_of_writeback (hmem : m.mem = s.mem) (hcache : m.cache = s.cache)
    (hsys : m.latch.ctl.syscall = true)
    (hcode : RegFile.read (m.latch.retire s.x) s.cfg.exitArgReg ≠ s.cfg.exitCode) :
    FaultsAfter s i 3 (.syscall m.latch.pc (RegFile.read (m.latch.retire s.x) s.cfg.exitArgReg)) := by
  obtain ⟨hready, hz16⟩ := h
  obtain ⟨t, w, hst, htw, hw⟩ := exec_reaches_writeback hready hadm he hno hm h12
  have hwb := writebackStage_of_unsupported_code (s := w) (by rw [hw.memwb, hsys])
    (by rw [hw.writebackRegs, hw.cfg]; exact hcode)
  rw [hw.writebackRegs, hw.cfg, hw.memwb] at hwb
  exact ⟨t, w, hst, htw, hw.x, hw.mem.trans hmem, hw.cache.trans hcache,
    step_drains_writeback_fault hw.status hw.bubbles (hw.fetchInstr hz16 h16) hw.memoryStage hwb⟩

end

/-! ## Instructions without an access -/

/-- The latch that the execute stage leaves for an instruction alone in the pipeline, with the result `v`. -/
def resultAlone (s : State) (i : Instr) (v sv : Word) (taken : Bool) (target : Word) : ExMemLatch where
  inst := viewOf i
  pc := s.pc
  ctl := ctlOf (viewOf i)
  alu := v
  sv := sv
  taken := taken
  target := target

/-- Alone in the pipeline, the operands are the values of the registers that the control signals name. -/
theorem executedAlone_of_ctl {s : State} {i : Instr} {ctl : Ctl} (h : ctlOf (viewOf i) = ctl) :
    executedAlone s i =
      executeStage s.cfg (decodeStage (fetchLatch s.pc (viewOf i)) s.x) (s.x.read ctl.rs1) (s.x.read ctl.rs2) := by
  subst h
  rfl

theorem memoryAlone_of_no_access {s : State} {e : ExMemLatch} (hr : e.ctl.memRead = false)
    (hw : e.ctl.memWrite = false) :
    memoryAlone s e = .ok { mem := s.mem, cache := s.cache, probe := none, latch := memWbOf e 0#32 } :=
  memoryStage_of_no_access (s := { s with exmem := e }) hr hw

section
variable {e : ExMemLatch} {md : Word} (x : RegFile)

theorem retire_memWbOf_value (hr : e.ctl.memRead = false) (hwrites : e.ctl.writesRf = true) :
    (memWbOf e md).retire x = x.write e.ctl.rd e.alu := by
  simp [MemWbLatch.retire, writebackValue, memWbOf, hr, hwrites]

theorem retire_memWbOf_load (hr : e.ctl.memRead = true) (hwrites : e.ctl.writesRf = true) :
    (memWbOf e md).retire x = x.write e.ctl.rd md := by
  simp [MemWbLatch.retire, writebackValue, memWbOf, hr, hwrites]

theorem retire_memWbOf_none (hwrites : e.ctl.writesRf = false) : (memWbOf e md).retire x = x := by
  simp [MemWbLatch.retire, memWbOf, hwrites]

end

/-- The control signals `ctl` ask for no access and no system call. -/
structure ResultOnly (ctl : Ctl) : Prop where
  noRead : ctl.memRead = false
  noWrite : ctl.memWrite = false
  noCall : ctl.syscall = false

section
variable {s : State} {i : Instr} {v sv target : Word} (h : Ready s) (hadm : i.admitted s.cfg.mExt = true)
  (honly : ResultOnly (ctlOf (viewOf i))) (he : executedAlone s i = .ok (resultAlone s i v sv false target))
include h hadm honly he

/-- An instruction with a result and without an access writes the result to its destination. -/
theorem registerResult_of_execute {rd : Reg} (hwrites : (ctlOf (viewOf i)).writesRf = true)
    (hrd : (ctlOf (viewOf i)).rd = rd) : RegisterResult s i rd v := by
  subst hrd
  obtain ⟨t, u, hst, htu, hu⟩ := exec_retires h hadm he rfl (memoryAlone_of_no_access honly.noRead honly.noWrite) rfl rfl
    honly.noCall.symm fun hsys => by cases honly.noCall.symm.trans hsys
  exact ⟨t, u, hst, htu, hu.x.trans (retire_memWbOf_value _ honly.noRead hwrites), hu.mem, hu.cache, hu.retired⟩

/-- An instruction without a destination and without an access changes nothing. -/
theorem noResult_of_execute (hwrites : (ctlOf (viewOf i)).writesRf = false) : NoResult s i := by
  obtain ⟨t, u, hst, htu, hu⟩ := exec_retires h hadm he rfl (memoryAlone_of_no_access honly.noRead honly.noWrite) rfl rfl
    honly.noCall.symm fun hsys => by cases honly.noCall.symm.trans hsys
  exact ⟨t, u, hst, htu, hu.x.trans (retire_memWbOf_none _ hwrites), hu.mem, hu.cache, hu.retired⟩

end

/-- From the control signals of an instruction and what its execute stage makes of the two registers they name, to its
completion. -/
theorem registerResult_of_ctl {s : State} {i : Instr} {ctl : Ctl} {rd : Reg} {v sv target : Word} (h : Ready s)
    (hadm : i.admitted s.cfg.mExt = true) (hctl : ctlOf (viewOf i) = ctl) (honly : ResultOnly ctl)
    (hwrites : ctl.writesRf = true) (hrd : ctl.rd = rd)
    (he : executeStage s.cfg (decodeStage (fetchLatch s.pc (viewOf i)) s.x) (s.x.read ctl.rs1) (s.x.read ctl.rs2) =
      .ok (resultAlone s i v sv false target)) : RegisterResult s i rd v := by
  have hexec := (executedAlone_of_ctl hctl).trans he
  subst hctl
  exact registerResult_of_execute h hadm honly hexec hwrites hrd

/-- As `registerResult_of_ctl`, of an instruction of the register-register row. -/
theorem registerResult_of_register {s : State} {i : Instr} {rd rs1 rs2 : Reg} {v : Word} (h : Ready s)
    (hadm : i.admitted s.cfg.mExt = true)
    (he : executeStage s.cfg (decodeStage (fetchLatch s.pc (viewOf i)) s.x) (s.x.read rs1) (s.x.read rs2) =
      .ok (resultAlone s i v (s.x.read rs2) false 0#32))
    (hctl : ctlOf (viewOf i) = { Ctl.bubble with
      uses1 := true, uses2 := true, readsRf := true, writesRf := true, rs1 := rs1, rs2 := rs2, rd := rd }) :
    RegisterResult s i rd v :=
  registerResult_of_ctl h hadm hctl ⟨rfl, rfl, rfl⟩ rfl rfl he

/-- As `registerResult_of_ctl`, of an instruction of the register-immediate row. -/
theorem registerResult_of_immediate {s : State} {i : Instr} {rd rs1 : Reg} {v : Word} (h : Ready s)
    (hadm : i.admitted s.cfg.mExt = true)
    (he : executeStage s.cfg (decodeStage (fetchLatch s.pc (viewOf i)) s.x) (s.x.read rs1) (s.x.read 0#5) =
      .ok (resultAlone s i v (s.x.read 0#5) false 0#32))
    (hctl : ctlOf (viewOf i) = { Ctl.bubble with
      uses1 := true, readsRf := true, writesRf := true, immOp2 := true, rs1 := rs1, rd := rd }) :
    RegisterResult s i rd v :=
  registerResult_of_ctl h hadm hctl ⟨rfl, rfl, rfl⟩ rfl rfl he

/-- Settles O32: the two registers are the operands, and the destination is written in the writeback stage. -/
theorem registerInstructionsComplete : Obligations.RegisterInstructionsComplete := by
  intro s rd rs1 rs2 h
  obtain ⟨hctl, -⟩ := controlSignalsOfEveryInstruction rd rs1 rs2 0 0 0 0 0
  have hexec := executeStageOfArithmetic s.cfg s.pc s.x (s.x.read rs1) (s.x.read rs2) rd rs1 rs2 0 0 0
  simp only [List.forall_mem_cons] at hexec
  obtain ⟨add, sub, sll, slt, sltu, xor, srl, sra, or, and, -⟩ := hexec
  exact ⟨registerResult_of_register h rfl add (hctl _ (by simp)),
    registerResult_of_register h rfl sub (hctl _ (by simp)),
    registerResult_of_register h rfl sll (hctl _ (by simp)),
    registerResult_of_register h rfl slt (hctl _ (by simp)),
    registerResult_of_register h rfl sltu (hctl _ (by simp)),
    registerResult_of_register h rfl xor (hctl _ (by simp)),
    registerResult_of_register h rfl srl (hctl _ (by simp)),
    registerResult_of_register h rfl sra (hctl _ (by simp)),
    registerResult_of_register h rfl or (hctl _ (by simp)),
    registerResult_of_register h rfl and (hctl _ (by simp))⟩

end Sys2Proof.Machine

namespace Sys2Proof.Machine

/-! ## The other instructions with a result (R331 to R341, R441 to R449) -/

/-- Settles O33: the immediate is the second operand. -/
theorem immediateInstructionsComplete : Obligations.ImmediateInstructionsComplete := by
  intro s rd rs1 imm shamt imm20 h
  obtain ⟨-, hctl, hupper, -⟩ := controlSignalsOfEveryInstruction rd rs1 0 imm shamt imm20 0 0
  have hexec := executeStageOfArithmetic s.cfg s.pc s.x (s.x.read rs1) (s.x.read 0#5) rd rs1 0 imm shamt imm20
  have hexecUpper := executeStageOfArithmetic s.cfg s.pc s.x (s.x.read 0#5) (s.x.read 0#5) rd rs1 0 imm shamt imm20
  simp only [List.forall_mem_cons] at hexec hexecUpper
  obtain ⟨-, -, -, -, -, -, -, -, -, -, addi, slti, sltiu, xori, ori, andi, slli, srli, srai, -⟩ := hexec
  obtain ⟨-, -, -, -, -, -, -, -, -, -, -, -, -, -, -, -, -, -, -, lui, auipc, -⟩ := hexecUpper
  exact ⟨registerResult_of_immediate h rfl addi (hctl _ (by simp)),
    registerResult_of_immediate h rfl slti (hctl _ (by simp)),
    registerResult_of_immediate h rfl sltiu (hctl _ (by simp)),
    registerResult_of_immediate h rfl xori (hctl _ (by simp)),
    registerResult_of_immediate h rfl ori (hctl _ (by simp)),
    registerResult_of_immediate h rfl andi (hctl _ (by simp)),
    registerResult_of_immediate h rfl slli (hctl _ (by simp)),
    registerResult_of_immediate h rfl srli (hctl _ (by simp)),
    registerResult_of_immediate h rfl srai (hctl _ (by simp)),
    registerResult_of_ctl h rfl (hupper _ (by simp)) ⟨rfl, rfl, rfl⟩ rfl rfl lui,
    registerResult_of_ctl h rfl (hupper _ (by simp)) ⟨rfl, rfl, rfl⟩ rfl rfl auipc⟩

/-- Settles O45: a multiply goes through the pipeline as a register-register instruction does. -/
theorem multipliesComplete : Obligations.MultipliesComplete := by
  rintro s rd rs1 rs2 a b h hext rfl rfl
  have hadm {i : Instr} : i.admitted s.cfg.mExt = true := by rw [Instr.admitted, hext, Bool.or_true]
  obtain ⟨hctl, -⟩ := controlSignalsOfEveryInstruction rd rs1 rs2 0 0 0 0 0
  obtain ⟨hexec, -⟩ := executeStageOfMultiplyAndDivide s.cfg s.pc s.x (s.x.read rs1) (s.x.read rs2) rd rs1 rs2 hext
  simp only [List.forall_mem_cons] at hexec
  obtain ⟨mul, mulh, mulhsu, mulhu, -⟩ := hexec
  exact ⟨registerResult_of_register h hadm mul (hctl _ (by simp)),
    registerResult_of_register h hadm mulh (hctl _ (by simp)),
    registerResult_of_register h hadm mulhsu (hctl _ (by simp)),
    registerResult_of_register h hadm mulhu (hctl _ (by simp))⟩

/-- Settles O46: outside the corner cases, and in them with `riscv`, a divide has a result. -/
theorem dividesComplete : Obligations.DividesComplete := by
  rintro s rd rs1 rs2 a b h hext rfl rfl
  have hadm {i : Instr} : i.admitted s.cfg.mExt = true := by rw [Instr.admitted, hext, Bool.or_true]
  obtain ⟨hctl, -⟩ := controlSignalsOfEveryInstruction rd rs1 rs2 0 0 0 0 0
  obtain ⟨-, hunsigned, hsigned, hriscv, -⟩ :=
    executeStageOfMultiplyAndDivide s.cfg s.pc s.x (s.x.read rs1) (s.x.read rs2) rd rs1 rs2 hext
  simp only [List.forall_mem_cons] at hunsigned hsigned hriscv
  refine ⟨fun hb => ?unsigned, fun hb hov => ?signed, fun hc hb => ?zeroDivisor, fun hc ha hb => ?overflow⟩
  case unsigned =>
    obtain ⟨divu, remu, -⟩ := hunsigned hb
    exact ⟨registerResult_of_register h hadm divu (hctl _ (by simp)),
      registerResult_of_register h hadm remu (hctl _ (by simp))⟩
  case signed =>
    obtain ⟨div, rem, -⟩ := hsigned hb hov
    exact ⟨registerResult_of_register h hadm div (hctl _ (by simp)),
      registerResult_of_register h hadm rem (hctl _ (by simp))⟩
  case zeroDivisor =>
    obtain ⟨div, divu, rem, remu, -⟩ := (hriscv hc).1 hb
    exact ⟨registerResult_of_register h hadm div (hctl _ (by simp)),
      registerResult_of_register h hadm divu (hctl _ (by simp)),
      registerResult_of_register h hadm rem (hctl _ (by simp)),
      registerResult_of_register h hadm remu (hctl _ (by simp))⟩
  case overflow =>
    obtain ⟨div, rem, -⟩ := (hriscv hc).2 ha hb
    exact ⟨registerResult_of_register h hadm div (hctl _ (by simp)),
      registerResult_of_register h hadm rem (hctl _ (by simp))⟩

/-! ## Instructions that write nothing: branches that are not taken, and the bubble -/

/-- From the control signals of an instruction without a destination to its completion. -/
theorem noResult_of_ctl {s : State} {i : Instr} {ctl : Ctl} {v sv target : Word} {taken : Bool} (h : Ready s)
    (hadm : i.admitted s.cfg.mExt = true) (hctl : ctlOf (viewOf i) = ctl) (honly : ResultOnly ctl)
    (hwrites : ctl.writesRf = false)
    (he : executeStage s.cfg (decodeStage (fetchLatch s.pc (viewOf i)) s.x) (s.x.read ctl.rs1) (s.x.read ctl.rs2) =
      .ok (resultAlone s i v sv taken target)) (hno : taken = false) : NoResult s i := by
  have hexec := (executedAlone_of_ctl hctl).trans he
  subst hctl hno
  exact noResult_of_execute h hadm honly hexec hwrites

/-- Settles O38: the condition of each branch is the negation of the hypothesis. -/
theorem untakenBranchesComplete : Obligations.UntakenBranchesComplete := by
  intro s rs1 rs2 off h heven
  obtain ⟨-, -, -, -, -, hctl, -⟩ := controlSignalsOfEveryInstruction 0 rs1 rs2 0 0 0 off 0
  have hexec := executeStageOfTheOthers s.cfg s.pc s.x (s.x.read rs1) (s.x.read rs2) 0 rs1 rs2 0 off 0 heven rfl
  simp only [List.forall_mem_cons] at hexec
  obtain ⟨-, -, -, -, -, -, -, -, beq, bne, blt, bge, bltu, bgeu, -⟩ := hexec
  exact ⟨fun hc => noResult_of_ctl h rfl (hctl _ (by simp)) ⟨rfl, rfl, rfl⟩ rfl beq (decide_eq_false hc),
    fun hc => noResult_of_ctl h rfl (hctl _ (by simp)) ⟨rfl, rfl, rfl⟩ rfl bne (decide_eq_false (not_not_intro hc)),
    fun hc => noResult_of_ctl h rfl (hctl _ (by simp)) ⟨rfl, rfl, rfl⟩ rfl blt (decide_eq_false hc.not_gt),
    fun hc => noResult_of_ctl h rfl (hctl _ (by simp)) ⟨rfl, rfl, rfl⟩ rfl bge (decide_eq_false hc.not_ge),
    fun hc => noResult_of_ctl h rfl (hctl _ (by simp)) ⟨rfl, rfl, rfl⟩ rfl bltu (decide_eq_false hc.not_gt),
    fun hc => noResult_of_ctl h rfl (hctl _ (by simp)) ⟨rfl, rfl, rfl⟩ rfl bgeu (decide_eq_false hc.not_ge)⟩

/-- Settles O44: the bubble has no destination, no access and no call. -/
theorem bubbleCompletes : Obligations.BubbleCompletes := fun _ h =>
  noResult_of_ctl (v := 0#32) (target := 0#32) h rfl rfl ⟨rfl, rfl, rfl⟩ rfl rfl rfl

/-! ## ECALL (R420 to R422) -/

/-- What ECALL, alone in the pipeline, hands to its writeback stage. -/
def ecallAccess (s : State) : MemOut where
  mem := s.mem
  cache := s.cache
  probe := none
  latch := memWbOf (resultAlone s .ecall 0#32 (s.x.read 0#5) false 0#32) 0#32

theorem ecallAccess_eq (s : State) :
    executedAlone s .ecall = .ok (resultAlone s .ecall 0#32 (s.x.read 0#5) false 0#32) ∧
    memoryAlone s (resultAlone s .ecall 0#32 (s.x.read 0#5) false 0#32) = .ok (ecallAccess s) ∧
    (ecallAccess s).latch.retire s.x = s.x :=
  ⟨rfl, memoryAlone_of_no_access rfl rfl, retire_memWbOf_none _ rfl⟩

/-- Settles O42: the exit check reads the register file that ECALL leaves as it was. -/
theorem ecallTerminates : Obligations.EcallTerminates := by
  intro s h hexit
  obtain ⟨he, hm, hx⟩ := ecallAccess_eq s
  obtain ⟨t, u, hst, htu, hu⟩ := exec_retires (term := true) h rfl he rfl hm rfl rfl rfl fun _ => by rw [hx, hexit]
  exact ⟨t, u, hst, htu, hu.status, hu.x.trans hx, hu.mem, hu.cache, hu.cfg, hu.pc, hu.ctr⟩

/-- Settles O43: with another value the exit check of the same cycle raises. -/
theorem ecallWithAnotherCodeFaults : Obligations.EcallWithAnotherCodeFaults := by
  intro s h hcode
  obtain ⟨he, hm, hx⟩ := ecallAccess_eq s
  have hfault := faultsAfter_of_writeback h rfl he rfl hm rfl rfl rfl rfl rfl (by rw [hx]; exact hcode)
  rwa [hx] at hfault

/-! ## Transfers that redirect (R390 to R401) -/

/-- A taken transfer without a destination. -/
theorem takenResult_of_redirectsTo {s : State} {i : Instr} {target : Word} (h : ReadyForTransfer s)
    (hto : RedirectsTo s i target) (hwrites : (ctlOf (viewOf i)).writesRf = false) : TakenResult s i target := by
  obtain ⟨t, u, hst, htu, hu, e, he, hmemwb⟩ := exec_redirects h hto
  obtain ⟨-, hctl⟩ := executeStage_latch he
  refine ⟨t, u, hst, htu, hu, ?_⟩
  rw [hmemwb]
  exact (congrArg Ctl.writesRf hctl).trans hwrites

/-- Settles O37: a branch whose condition holds redirects, and the branch row has no destination. -/
theorem takenBranchesComplete : Obligations.TakenBranchesComplete := by
  intro s rs1 rs2 off h heven
  have taken {i : Instr} (hwrites : (ctlOf (viewOf i)).writesRf = false)
      (hto : RedirectsTo s i (s.pc + off.signExtend 32)) := takenResult_of_redirectsTo h hto hwrites
  refine ⟨fun hc => taken rfl ?_, fun hc => taken rfl ?_, fun hc => taken rfl ?_, fun hc => taken rfl ?_,
    fun hc => taken rfl ?_, fun hc => taken rfl ?_⟩
  · exact redirectsTo_of_branch rfl rfl rfl rfl (fun _ _ => rfl) heven (decide_eq_true hc)
  · exact redirectsTo_of_branch rfl rfl rfl rfl (fun _ _ => rfl) heven (decide_eq_true hc)
  · exact redirectsTo_of_branch rfl rfl rfl rfl (fun _ _ => rfl) heven (decide_eq_true hc)
  · exact redirectsTo_of_branch rfl rfl rfl rfl (fun _ _ => rfl) heven
      ((condBge_eq _ _).trans (decide_eq_true hc))
  · exact redirectsTo_of_branch rfl rfl rfl rfl (fun _ _ => rfl) heven (decide_eq_true hc)
  · exact redirectsTo_of_branch rfl rfl rfl rfl (fun _ _ => rfl) heven
      ((condBgeu_eq _ _).trans (decide_eq_true hc))

/-- A jump writes its return address in the cycle that fetches the word at its target. -/
theorem jumpResult_of_redirectsTo {s : State} {i j : Instr} {rd : Reg} {target sv : Word} (h : ReadyForTransfer s)
    (hto : RedirectsTo s i target) (hj : FetchesAt s target j)
    (he : executedAlone s i = .ok (resultAlone s i (s.pc + 4#32) sv true target))
    (hwrites : (ctlOf (viewOf i)).writesRf = true) (hcall : (ctlOf (viewOf i)).syscall = false)
    (hrd : (ctlOf (viewOf i)).rd = rd) : JumpResult s i rd target j := by
  subst hrd
  obtain ⟨t, u, hst, htu, hu, e, he', hmemwb⟩ := exec_redirects h hto
  obtain rfl : resultAlone s i (s.pc + 4#32) sv true target = e := Except.ok.inj (he.symm.trans he')
  have ⟨hpc, hx, hmem, hcache, hcfg, hrun, hctr, hifid, hidex, hexmem, _⟩ := hu
  obtain ⟨halign, hbounds, hdecode⟩ := hj
  have hm := memoryStage_of_no_access (s := u) (by rw [hexmem]; rfl) (by rw [hexmem]; rfl)
  have hfetch : fetchInstr u = .ok j := by
    rw [fetchInstr_ok_iff, fetchMemory_of_ok hm, ite_self, hpc, hcfg, hmem]
    exact ⟨halign, hbounds, hdecode⟩
  have hregs : writebackRegs u = s.x.write (ctlOf (viewOf i)).rd (s.pc + 4#32) := by
    rw [writebackRegs_eq_retire, hmemwb, hx]
    exact retire_memWbOf_value s.x hto.noRead hwrites
  have hsys : u.memwb.ctl.syscall = false := by rw [hmemwb]; exact hcall
  have hwb : writebackStage u = .ok (s.x.write (ctlOf (viewOf i)).rd (s.pc + 4#32), false) :=
    writebackStage_ok_iff.2 ⟨hregs.symm, hsys.symm, by simp [hsys]⟩
  have hbubbles : BubblesBehind u := ⟨by rw [hifid]; rfl, by rw [hidex]; rfl, by rw [hidex]; rfl⟩
  obtain ⟨w, huw, hw⟩ := step_drains hrun hbubbles hfetch (by rw [hexmem]; rfl) hm hwb
  refine ⟨t, u, w, hst, htu, hu, huw, hw.x, hw.mem.trans hmem, hw.cache.trans hcache, hw.cfg.trans hcfg, hw.status, ?_,
    ?_, hw.idexCtl, hw.exmemCtl, ?_, ?_⟩
  · rw [hw.pc, hpc]
  · rw [hw.ifid, hpc]
  · rw [hw.memwb, hexmem]; rfl
  · rw [hw.ctr, hctr]

/-- Settles O39: JAL redirects, and is written back in the cycle that fetches at its target. -/
theorem jalCompletes : Obligations.JalCompletes := by
  intro s rd off j h heven hj
  have hexec := executeStageOfTheOthers s.cfg s.pc s.x (s.x.read 0#5) (s.x.read 0#5) rd 0 0 0 0 off rfl heven
  simp only [List.forall_mem_cons] at hexec
  obtain ⟨-, -, -, -, -, -, -, -, -, -, -, -, -, -, jal, -⟩ := hexec
  exact jumpResult_of_redirectsTo h (redirectsTo_of_jal heven) hj jal rfl rfl (encodeJ_rd ..)

/-- Settles O40: as for JAL; the base is read in the execute stage, before the return address is written. -/
theorem jalrCompletes : Obligations.JalrCompletes := by
  intro s rd rs1 imm j h hj
  obtain ⟨-, -, -, -, -, -, -, hctl, -⟩ := controlSignalsOfEveryInstruction rd rs1 0 imm 0 0 0 0
  have hexec := executeStageOfTheOthers s.cfg s.pc s.x (s.x.read rs1) (s.x.read 0#5) rd rs1 0 imm 0 0 rfl rfl
  simp only [List.forall_mem_cons] at hexec
  obtain ⟨-, -, -, -, -, -, -, -, -, -, -, -, -, -, -, jalr, -⟩ := hexec
  exact jumpResult_of_redirectsTo h redirectsTo_of_jalr hj ((executedAlone_of_ctl hctl).trans jalr) rfl rfl
    (encodeI_rd ..)

end Sys2Proof.Machine

namespace Sys2Proof.Machine

/-! ## Loads and stores (R360 to R376) -/

/-- The control signals of a load (R206). -/
def loadCtl (rd rs1 : Reg) (width : Width) (signed : Bool) : Ctl :=
  { Ctl.bubble with
    uses1 := true, readsRf := true, writesRf := true, memRead := true, immOp2 := true, rs1 := rs1, rd := rd,
    width := width, loadSigned := signed }

/-- The control signals of a store (R206). -/
def storeCtl (rs1 rs2 : Reg) (width : Width) : Ctl :=
  { Ctl.bubble with
    uses1 := true, uses2 := true, readsRf := true, memWrite := true, immOp2 := true, rs1 := rs1, rs2 := rs2,
    width := width }

section
variable {s : State} {i : Instr} {rd rs1 rs2 : Reg} {width : Width} {signed : Bool} {ea : Word}

section
variable (hctl : ctlOf (viewOf i) = loadCtl rd rs1 width signed)
  (he : executeStage s.cfg (decodeStage (fetchLatch s.pc (viewOf i)) s.x) (s.x.read rs1) (s.x.read 0#5) =
    .ok (resultAlone s i ea (s.x.read 0#5) false 0#32))
include hctl he

/-- A load whose address does not pass the checks raises in its memory stage. -/
theorem faultsAfter_of_load {f : Fault} (h : ReadyForTransfer s) (hadm : i.admitted s.cfg.mExt = true)
    (hf : checkAccess s.cfg.memSize .load ea width.bytes = some f) : FaultsAfter s i 2 f := by
  refine faultsAfter_of_memory h hadm ((executedAlone_of_ctl hctl).trans he) (memoryStage_of_load_fault ?_ ?_)
  · exact congrArg Ctl.memRead hctl
  · simp only [resultAlone, hctl]
    exact hf

/-- A load whose address passes the checks writes the extended bytes to its destination. -/
theorem loadResult_of_load {v : Word} (h : Ready s) (hadm : i.admitted s.cfg.mExt = true)
    (hvalid : s.cfg.valid = true) (hwf : CacheWf s.cfg s.cache)
    (hpass : ea.toNat % width.bytes = 0 ∧ ea.toNat + width.bytes ≤ s.cfg.memSize)
    (hv : extendLoad width signed (s.mem.readWidth ea.toNat width) = v) : LoadResult s i rd ea v := by
  obtain ⟨k, p, hp, -, hprobed⟩ := probeAccess_total hvalid hwf ea
  have hread : (ctlOf (viewOf i)).memRead = true := congrArg Ctl.memRead hctl
  have hcall : (ctlOf (viewOf i)).syscall = false := congrArg Ctl.syscall hctl
  have hm : memoryAlone s (resultAlone s i ea (s.x.read 0#5) false 0#32) = .ok
      { mem := s.mem, cache := k, probe := p, latch := memWbOf (resultAlone s i ea (s.x.read 0#5) false 0#32) v } := by
    refine (memoryStage_of_load_pass hread ?_ hp).trans ?_
    · simp only [resultAlone, hctl]
      exact checkAccess_none_iff.2 hpass
    · simp only [resultAlone, hctl]
      exact congrArg (fun v => Except.ok (MemOut.mk s.mem k p (memWbOf _ v))) hv
  obtain ⟨t, u, hst, htu, hu⟩ := exec_retires h hadm ((executedAlone_of_ctl hctl).trans he) rfl hm rfl rfl hcall.symm
    fun hsys => by cases hcall.symm.trans hsys
  refine ⟨t, u, hst, htu, ?_, hu.mem, ?_, hu.retired⟩
  · refine hu.x.trans ((retire_memWbOf_load s.x hread (congrArg Ctl.writesRf hctl)).trans ?_)
    rw [show (resultAlone s i ea (s.x.read 0#5) false 0#32).ctl.rd = rd from congrArg Ctl.rd hctl]
  · rw [hu.cache]
    exact hprobed

end

section
variable (hctl : ctlOf (viewOf i) = storeCtl rs1 rs2 width)
  (he : executeStage s.cfg (decodeStage (fetchLatch s.pc (viewOf i)) s.x) (s.x.read rs1) (s.x.read rs2) =
    .ok (resultAlone s i ea (s.x.read rs2) false 0#32))
include hctl he

/-- A store whose address does not pass the checks raises in its memory stage. -/
theorem faultsAfter_of_store {f : Fault} (h : ReadyForTransfer s) (hadm : i.admitted s.cfg.mExt = true)
    (hf : checkAccess s.cfg.memSize .store ea width.bytes = some f) : FaultsAfter s i 2 f := by
  refine faultsAfter_of_memory h hadm ((executedAlone_of_ctl hctl).trans he) (memoryStage_of_store_fault ?_ ?_ ?_)
  · exact congrArg Ctl.memRead hctl
  · exact congrArg Ctl.memWrite hctl
  · simp only [resultAlone, hctl]
    exact hf

/-- A store whose address passes the checks, outside the words that are fetched while it is in its last two stages. -/
theorem storeResult_of_store (h : Ready s) (hadm : i.admitted s.cfg.mExt = true) (hvalid : s.cfg.valid = true)
    (hwf : CacheWf s.cfg s.cache) (hmem : s.mem.wf = true)
    (hpass : ea.toNat % width.bytes = 0 ∧ ea.toNat + width.bytes ≤ s.cfg.memSize)
    (h12 : ea.toNat + width.bytes ≤ (s.pc + 12#32).toNat ∨ (s.pc + 12#32).toNat + 4 ≤ ea.toNat)
    (h16 : ea.toNat + width.bytes ≤ (s.pc + 16#32).toNat ∨ (s.pc + 16#32).toNat + 4 ≤ ea.toNat) :
    StoreResult s i ea width.bytes (s.x.read rs2) := by
  obtain ⟨k, p, hp, -, hprobed⟩ := probeAccess_total hvalid hwf ea
  have hcall : (ctlOf (viewOf i)).syscall = false := congrArg Ctl.syscall hctl
  have hm : memoryAlone s (resultAlone s i ea (s.x.read rs2) false 0#32) = .ok
      { mem := s.mem.writeWidth ea.toNat (s.x.read rs2) width, cache := k, probe := p
        latch := memWbOf (resultAlone s i ea (s.x.read rs2) false 0#32) 0#32 } := by
    refine (memoryStage_of_store_pass (congrArg Ctl.memRead hctl) (congrArg Ctl.memWrite hctl) ?_ hp).trans ?_
    · simp only [resultAlone, hctl]
      exact checkAccess_none_iff.2 hpass
    · simp only [resultAlone, hctl]
      rfl
  have hkept {a : Nat} (ha : ea.toNat + width.bytes ≤ a ∨ a + 4 ≤ ea.toNat) :
      (s.mem.writeWidth ea.toNat (s.x.read rs2) width).readWidth a .word = s.mem.readWidth a .word :=
    Memory.readWidth_congr a .word fun q hlow hhigh =>
      Memory.byte_writeWidth_outside hmem _ _ _ q (by simp only [Width.bytes] at hhigh; omega)
  obtain ⟨t, u, hst, htu, hu⟩ := exec_retires h hadm ((executedAlone_of_ctl hctl).trans he) rfl hm (hkept h12)
    (hkept h16) hcall.symm fun hsys => by cases hcall.symm.trans hsys
  refine ⟨t, u, hst, htu, hu.x.trans (retire_memWbOf_none s.x (congrArg Ctl.writesRf hctl)), ?_, ?_, ?_, hu.retired⟩
  · rw [hu.mem]
    exact Memory.byte_writeWidth_inside hmem _ _ _
  · rw [hu.mem]
    exact Memory.byte_writeWidth_outside hmem _ _ _
  · rw [hu.cache]
    exact hprobed

end

end

/-- Settles O34: the checks pass, so the load reads, and with a well-formed cache its probe answers. -/
theorem loadsComplete : Obligations.LoadsComplete := by
  rintro s rd rs1 imm ea h hvalid hwf rfl
  obtain ⟨-, -, -, hctl, -⟩ := controlSignalsOfEveryInstruction rd rs1 0 imm 0 0 0 0
  have hexec := executeStageOfTheOthers s.cfg s.pc s.x (s.x.read rs1) (s.x.read 0#5) rd rs1 0 imm 0 0 rfl rfl
  simp only [List.forall_mem_cons] at hctl hexec
  obtain ⟨clb, clh, clw, clbu, clhu, -⟩ := hctl
  obtain ⟨lb, lh, lw, lbu, lhu, -⟩ := hexec
  refine ⟨fun hb => ⟨?_, ?_⟩, fun ha hb => ⟨?_, ?_⟩, fun ha hb => ?_⟩
  · exact loadResult_of_load clb lb h rfl hvalid hwf ⟨Nat.mod_one _, hb⟩ (extendLoad_byte _ _ true)
  · exact loadResult_of_load clbu lbu h rfl hvalid hwf ⟨Nat.mod_one _, hb⟩ (extendLoad_byte _ _ false)
  · exact loadResult_of_load clh lh h rfl hvalid hwf ⟨ha, hb⟩ (extendLoad_half _ _ true)
  · exact loadResult_of_load clhu lhu h rfl hvalid hwf ⟨ha, hb⟩ (extendLoad_half _ _ false)
  · exact loadResult_of_load clw lw h rfl hvalid hwf ⟨ha, hb⟩ (extendLoad_word _ _ false)

/-- Settles O35: the checks pass, so the store writes its bytes, and the words that are fetched behind it stay zero. -/
theorem storesComplete : Obligations.StoresComplete := by
  rintro s rs1 rs2 imm ea h hvalid hwf hmem rfl
  obtain ⟨-, -, -, -, hctl, -⟩ := controlSignalsOfEveryInstruction 0 rs1 rs2 imm 0 0 0 0
  have hexec := executeStageOfTheOthers s.cfg s.pc s.x (s.x.read rs1) (s.x.read rs2) 0 rs1 rs2 imm 0 0 rfl rfl
  simp only [List.forall_mem_cons] at hctl hexec
  obtain ⟨csb, csh, csw, -⟩ := hctl
  obtain ⟨-, -, -, -, -, sb, sh, sw, -⟩ := hexec
  intro p hp
  fin_cases hp
  · exact fun ha hb => storeResult_of_store csb sb h rfl hvalid hwf hmem ⟨ha, hb⟩
  · exact fun ha hb => storeResult_of_store csh sh h rfl hvalid hwf hmem ⟨ha, hb⟩
  · exact fun ha hb => storeResult_of_store csw sw h rfl hvalid hwf hmem ⟨ha, hb⟩

/-- Settles O36: the first check that fails is the fault of the memory stage. -/
theorem loadsAndStoresFault : Obligations.LoadsAndStoresFault := by
  rintro s rd rs1 rs2 imm ea h rfl p hp
  obtain ⟨-, -, -, hload, hstore, -⟩ := controlSignalsOfEveryInstruction rd rs1 rs2 imm 0 0 0 0
  have hexec (b : Word) := executeStageOfTheOthers s.cfg s.pc s.x (s.x.read rs1) b rd rs1 rs2 imm 0 0 rfl rfl
  simp only [List.forall_mem_cons] at hload hstore hexec
  obtain ⟨clb, clh, clw, clbu, clhu, -⟩ := hload
  obtain ⟨csb, csh, csw, -⟩ := hstore
  obtain ⟨lb, lh, lw, lbu, lhu, -⟩ := hexec (s.x.read 0#5)
  obtain ⟨-, -, -, -, -, sb, sh, sw, -⟩ := hexec (s.x.read rs2)
  have hfault : ∀ f, checkAccess s.cfg.memSize p.2.1 (s.x.read rs1 + imm.signExtend 32) p.2.2 = some f →
      FaultsAfter s p.1 2 f := by
    fin_cases hp
    · exact fun _ => faultsAfter_of_load clb lb h rfl
    · exact fun _ => faultsAfter_of_load clbu lbu h rfl
    · exact fun _ => faultsAfter_of_load clh lh h rfl
    · exact fun _ => faultsAfter_of_load clhu lhu h rfl
    · exact fun _ => faultsAfter_of_load clw lw h rfl
    · exact fun _ => faultsAfter_of_store csb sb h rfl
    · exact fun _ => faultsAfter_of_store csh sh h rfl
    · exact fun _ => faultsAfter_of_store csw sw h rfl
  exact ⟨fun hm => hfault _ (checkAccess_of_misaligned hm), fun ha hb => hfault _ (checkAccess_of_out_of_bounds ha hb)⟩

/-! ## A divide that raises in its execute stage (R449) -/

/-- In the second cycle after the one that fetches it, an instruction alone in the pipeline is in its execute stage. -/
theorem exec_reaches_execute {s : State} {i : Instr} (h : ReadyForTransfer s) (hadm : i.admitted s.cfg.mExt = true) :
    ∃ t u, exec i s = .next t ∧ stepN 1 t = .next u ∧ Advanced 2 s u ∧ u.idex = decodedAlone s i ∧
      u.exmem.ctl = Ctl.bubble := by
  obtain ⟨hdrained, hz4, -, -⟩ := h
  have ⟨_, hifid, hidexInst, hidexCtl, hexmem, hno, _⟩ := hdrained
  obtain ⟨e₀, he₀, hctl₀, hno₀⟩ :=
    executeStage_of_bubble (c := s.cfg) (a := s.idex.v1) (b := s.idex.v2) hidexInst
  obtain ⟨t, hst, hadv₁, htifid, htidex, htexmem⟩ :=
    exec_moves_on (advanced_zero hdrained) hadm hexmem hno (hazardDetect_of_ifid_bubble hifid) he₀
  have htctl : t.idex.ctl = Ctl.bubble := by rw [htidex, decodeStage, hifid]; rfl
  obtain ⟨e₁, he₁, hctl₁, -⟩ :=
    executeStage_of_bubble (c := s.cfg) (d := t.idex) (a := t.idex.v1) (b := t.idex.v2) (by rw [htidex]; exact hifid)
  obtain ⟨u, htu, hadv₂, -, huidex, huexmem⟩ :=
    step_moves_on hadv₁ hz4 (by rw [htexmem, hctl₀, hidexCtl]) (by rw [htexmem, hno₀])
      (hazardDetect_of_idex_bubble htctl) he₁
  refine ⟨t, u, hst, stepN_succ_of_next rfl htu, hadv₂, ?_, by rw [huexmem, hctl₁, htctl]⟩
  rw [huidex, htifid]
  rfl

/-- An instruction that raises in its execute stage does so in the second cycle after the one that fetches it. -/
theorem faultsAfter_of_execute {s : State} {i : Instr} {f : Fault} (h : ReadyForTransfer s)
    (hadm : i.admitted s.cfg.mExt = true) (he : executedAlone s i = .error f) : FaultsAfter s i 1 f := by
  obtain ⟨t, u, hst, htu, hadv, hidex, hexmem⟩ := exec_reaches_execute h hadm
  obtain ⟨-, -, hz8, -⟩ := h
  have h1 : forward1 u = (u.idex.v1, .none) := forwardFrom_of_bubbles hexmem hadv.memwb _ _
  have h2 : forward2 u = (u.idex.v2, .none) := forwardFrom_of_bubbles hexmem hadv.memwb _ _
  have hfetch := fetchInstr_of_zeroWord hadv (by rw [hexmem]; rfl) (by rw [hexmem]; rfl) hz8
  have heu : executeStage u.cfg u.idex (forward1 u).1 (forward2 u).1 = .error f := by
    rw [h1, h2, hadv.cfg, hidex]
    exact he
  exact ⟨t, u, hst, htu, hadv.x, hadv.mem, hadv.cache,
    step_of_cycle_fault hadv.status hfetch (cycle_of_execute_fault heu)⟩

/-- Settles O47: the corner case raises in the execute stage, before any forward or access. -/
theorem divideCornersFault : Obligations.DivideCornersFault := by
  intro s rd rs1 rs2 h hext hcorner
  obtain ⟨hctl, -⟩ := controlSignalsOfEveryInstruction rd rs1 rs2 0 0 0 0 0
  obtain ⟨-, -, -, -, hfault⟩ :=
    executeStageOfMultiplyAndDivide s.cfg s.pc s.x (s.x.read rs1) (s.x.read rs2) rd rs1 rs2 hext
  obtain ⟨hzero, hoverflow⟩ := hfault hcorner
  have hadm {i : Instr} : i.admitted s.cfg.mExt = true := by rw [Instr.admitted, hext, Bool.or_true]
  refine ⟨fun hb i hi => ?zeroDivisor, fun ha hb i hi => ?overflow⟩
  case zeroDivisor =>
    have hc := hctl i (by fin_cases hi <;> simp)
    exact faultsAfter_of_execute h hadm ((executedAlone_of_ctl hc).trans (hzero hb i hi))
  case overflow =>
    have hc := hctl i (by fin_cases hi <;> simp)
    exact faultsAfter_of_execute h hadm ((executedAlone_of_ctl hc).trans (hoverflow ha hb i hi))

end Sys2Proof.Machine
